-- ==== Sys2Proof/Word.lean ====
section
/-! DEFINITION. The byte and the 32-bit word of the host bus (spec/20_memory.md R75, R76). A register of W bits is
not a bit vector here: W is a parameter (R6), so its value is a natural number below 2^W (log 9). -/

namespace Sys2Proof

/-- A byte of a buffer or of a byte string (R11). -/
abbrev Byte := BitVec 8

/-- A 32-bit bus word: a command (R100), a control register (10_state.md section 7), a bus access (R76). -/
abbrev Word := BitVec 32

end Sys2Proof
end

