-- ==== Sys2Proof/Machine/Arith.lean ====
section
/-! DEFINITION. Arithmetic modulo p: the shorthand of 00_scope.md R13, and the datapaths of the modular multiplier and
reducer and of the field-inverse unit (41_modarith.md R133 to R143), step for step as their rules give them. -/

namespace Sys2Proof.Machine

/-- `a +p b` (R13). -/
def addP (p a b : Nat) : Nat := (a + b) % p
/-- `a −p b` (R13), the residue of the integer difference. -/
def subP (p a b : Nat) : Nat := (a + (p - b % p)) % p
/-- `a ·p b` (R13). -/
def mulP (p a b : Nat) : Nat := a * b % p

/-- The datapath of R133: one conditional subtraction. -/
def modAdd (p a b : Nat) : Nat := if a + b ≥ p then a + b - p else a + b

/-- The datapath of R134. -/
def modSub (p a b : Nat) : Nat := if a ≥ b then a - b else a + p - b

/-- Digit `i` of `a` in base 2^w (R135): `a[(i+1)w − 1 : iw]`. -/
def digit (w a i : Nat) : Nat := a / 2 ^ (w * i) % 2 ^ w

/-- The accumulator T of R135 after the first `n` digits of `a`, least significant digit first. -/
def montAcc (w p pinv a b : Nat) : Nat → Nat
  | 0 => 0
  | n + 1 =>
    let t := montAcc w p pinv a b n + digit w a n * b
    let m := t % 2 ^ w * pinv % 2 ^ w
    (t + m * p) / 2 ^ w

/-- `MontMul(a, b)` of R135 with `s` digits of `w` bits and PINV0 = `pinv`. -/
def montMul (w s p pinv a b : Nat) : Nat :=
  let t := montAcc w p pinv a b s
  if t ≥ p then t - p else t

/-- `BarrettReduce(x)` of R141, for width `W` and the register MU. -/
def barrettReduce (W p mu x : Nat) : Nat :=
  let q1 := x / 2 ^ (W - 1)
  let q2 := q1 * (2 ^ W + mu)
  let q3 := q2 / 2 ^ (W + 1)
  let r := (((x : Int) - (q3 * p : Nat)) % (2 ^ (W + 2) : Nat)).toNat
  let r := if r ≥ p then r - p else r
  if r ≥ p then r - p else r

/-- The loop of R143 over the bits `n − 1` down to 0 of the exponent `e`, from the accumulator `r`. -/
def fermatLoop (p a e : Nat) : Nat → Nat → Nat
  | 0, r => r
  | n + 1, r =>
    let sq := mulP p r r
    fermatLoop p a e n (if e.testBit n then mulP p sq a else sq)

/-- `FermatInv(a)` of R143: a^(p−2) mod p, by square and multiply over the W bits of p − 2. -/
def fermatInv (W p a : Nat) : Nat := fermatLoop p a (p - 2) W 1

/-- The inverse of an odd `p` modulo 2^w, one bit more at a time (R121's `p^-1 mod 2^w`). -/
def invPow2 (p : Nat) : Nat → Nat
  | 0 => 0
  | w + 1 =>
    let x := invPow2 p w
    if p * x % 2 ^ (w + 1) = 1 then x else x + 2 ^ w

/-- SETUP's RR (R121). -/
def setupRR (W p : Nat) : Nat := 2 ^ (2 * W) % p
/-- SETUP's MU (R121): the constant without its bit W. -/
def setupMU (W p : Nat) : Nat := 2 ^ (2 * W) / p - 2 ^ W
/-- SETUP's PINV0 (R121). -/
def setupPINV0 (w p : Nat) : Nat := (2 ^ w - invPow2 p w % 2 ^ w) % 2 ^ w

end Sys2Proof.Machine
end

