-- ==== Sys2Proof/Machine/Sizing.lean ====
section
/-! DEFINITION. The size functions of the record codec that need no byte string: lenlen (44_codec.md R201) and the
worst-case record size WCS (R206). They stand before Config because R6 bounds REC_CAP by WCS. -/

namespace Sys2Proof.Machine

/-- `lenlen(n)` of R201: how many length bytes a content of `n` bytes takes. -/
def lenlen (n : Nat) : Nat :=
  if n < 128 then 1 else if n < 256 then 2 else if n < 65536 then 3 else if n < 2 ^ 24 then 4 else 5

/-- `WCS(F, D, L)` of R206: the worst-case record size for field length `F`, digest length `D`, message length `L`. -/
def wcs (F D L : Nat) : Nat :=
  let int := 1 + lenlen (F + 1) + (F + 1)
  let content := 2 * int + (1 + lenlen D + D) + (1 + lenlen L + L)
  1 + lenlen content + content

end Sys2Proof.Machine
end

