-- ==== Sys2Proof/Config.lean ====
section
/-! DEFINITION. The implementation parameters of 00_scope.md R6, as plain data (State holds one value of it, which no
step writes: log 1), the bounds R6 sets on them, and the free values: constants without a body that stand for the
hash port (20_memory.md R82, log 4) and for the production random source (R83, log 5). -/

namespace Sys2Proof

/-- The parameters R6 leaves open. The fixed ones (16 field registers, 4 point registers, SEED 128, RNGBUF 256,
TAG 64 bytes, MAXATT 16 at reset) are literals where they are used. -/
structure Config where
  /-- FIELD_BITS, written W. -/
  fieldBits : Nat
  /-- LIMB_BITS, written w. -/
  limbBits : Nat
  /-- DLEN[h] for 0 ≤ h < NHASH. -/
  dlen : List Nat
  /-- MSG_CAP, the capacity of MSG and of KS. -/
  msgCap : Nat
  /-- REC_CAP, the capacity of REC. -/
  recCap : Nat
  /-- The strap TEST_EN. -/
  testEn : Bool
  deriving DecidableEq, Repr

namespace Config

/-- FLEN = W / 8, the byte length of a field element (R6). -/
def flen (c : Config) : Nat := c.fieldBits / 8

/-- NLIMBS = W / w, written s (R6). -/
def nlimbs (c : Config) : Nat := c.fieldBits / c.limbBits

/-- NHASH, the number of hash functions on the hash port (R6). -/
def nhash (c : Config) : Nat := c.dlen.length

/-- DLEN[h]. Only asked for h < NHASH: every command checks that first (R108(b)). -/
def digestLen (c : Config) (h : Nat) : Nat := c.dlen.getD h 0

/-- The legal values of R6. -/
abbrev Legal (c : Config) : Prop :=
  (8 ≤ c.fieldBits ∧ c.fieldBits ≤ 512 ∧ c.fieldBits % 8 = 0) ∧
  (1 ≤ c.limbBits ∧ c.limbBits ≤ 32 ∧ c.fieldBits % c.limbBits = 0) ∧
  (1 ≤ c.nhash ∧ c.nhash ≤ 4 ∧ ∀ d ∈ c.dlen, 1 ≤ d ∧ d ≤ 64) ∧
  (1 ≤ c.msgCap ∧ c.msgCap ≤ 2 ^ 24 - 256) ∧
  (Machine.wcs c.flen 64 c.msgCap ≤ c.recCap ∧ c.recCap ≤ 2 ^ 24)

/-- The reference configuration CFG256: the default column of R6 (TEST_EN = 0 there). -/
def cfg256 : Config :=
  { fieldBits := 256, limbBits := 32, dlen := [32, 32], msgCap := 4096, recCap := 4240, testEn := false }

/-- Byte `i` of the answer of hash engine `h`, with digest length `d`, to the byte string `s` (R82). FREE: any value. -/
opaque hashByte (h d : Nat) (s : List Byte) (i : Nat) : Byte

/-- Whether the production source refuses its request number `n` (R83). FREE: any value. -/
opaque rngRefuses (n : Nat) : Bool

/-- Byte `i` of the production source's answer to its request number `n` (R83). FREE: any value. -/
opaque rngByte (n i : Nat) : Byte

end Config
end Sys2Proof
end

