-- ==== Sys2Proof/Syntax.lean ====
section
/-! DEFINITION. The 37 commands of CORE-CMD version 1 (30_encoding.md R104), one constructor per row of
spec/opcode_table.json, the operands in the order rd, ra, rb of the command word. A register number that a word can
carry but the command cannot use has no term here (R101): field registers are `Fin 16`, point registers `Fin 4`,
PGET's selector is one of three names. The one condition left to WellFormed is RDEC's rd ≠ ra (R103). -/

namespace Sys2Proof

/-- The number of a field register f[0..15] (R24). -/
abbrev FReg := Fin 16

/-- The number of a point register pt[0..3] (R25). -/
abbrev PReg := Fin 4

/-- PGET's selector: 0, 1, 2 (R172). -/
inductive Coord where
  | x | y | z
  deriving DecidableEq, Repr

/-- A command. -/
inductive Instr where
  /-- NOP, R120 -/
  | nop
  /-- SETUP, R121 -/
  | setup
  /-- ZEROIZE, R123 -/
  | zeroize
  /-- MODADD fd, fa, fb, R133 -/
  | modadd (rd ra rb : FReg)
  /-- MODSUB fd, fa, fb, R134 -/
  | modsub (rd ra rb : FReg)
  /-- MODMUL fd, fa, fb, R137 -/
  | modmul (rd ra rb : FReg)
  /-- MODSQR fd, fa, R138 -/
  | modsqr (rd ra : FReg)
  /-- MONTMUL fd, fa, fb, R136 -/
  | montmul (rd ra rb : FReg)
  /-- TOMONT fd, fa, R139 -/
  | tomont (rd ra : FReg)
  /-- FROMMONT fd, fa, R140 -/
  | frommont (rd ra : FReg)
  /-- MODRED fd, fa, fb, R142 -/
  | modred (rd ra rb : FReg)
  /-- MODINV fd, fa, R144 -/
  | modinv (rd ra : FReg)
  /-- CMP fa, fb, R145 -/
  | cmp (ra rb : FReg)
  /-- MOV fd, fa, R146 -/
  | mov (rd ra : FReg)
  /-- LDI fd, imm16, R147 -/
  | ldi (rd : FReg) (imm : BitVec 16)
  /-- PDBL pd, pa, R162 -/
  | pdbl (rd ra : PReg)
  /-- PADD pd, pa, pb, R163 -/
  | padd (rd ra rb : PReg)
  /-- PAFF pd, pa, R164 -/
  | paff (rd ra : PReg)
  /-- PEQ pa, pb, R165 -/
  | peq (ra rb : PReg)
  /-- PISINF pa, R166 -/
  | pisinf (ra : PReg)
  /-- PSETINF pd, R167 -/
  | psetinf (rd : PReg)
  /-- PLDG pd, R168 -/
  | pldg (rd : PReg)
  /-- PLDQ pd, R169 -/
  | pldq (rd : PReg)
  /-- PMOV pd, pa, R170 -/
  | pmov (rd ra : PReg)
  /-- PSET pd, fa, fb, R171 -/
  | pset (rd : PReg) (ra rb : FReg)
  /-- PGET fd, pa, sel, R172 -/
  | pget (rd : FReg) (ra : PReg) (sel : Coord)
  /-- ONC fa, fb, R173 -/
  | onc (ra rb : FReg)
  /-- PMUL pd, pa, fk, R176 -/
  | pmul (rd ra : PReg) (rb : FReg)
  /-- SCHK fa, R177 -/
  | schk (ra : FReg)
  /-- KDF, R191 -/
  | kdf
  /-- RENC fa, fb, R209 -/
  | renc (ra rb : FReg)
  /-- RDEC fd, fa, R214: both operands are destinations -/
  | rdec (rd ra : FReg)
  /-- CTSIZE, R207 -/
  | ctsize
  /-- PTSIZE, R215 -/
  | ptsize
  /-- ENCRYPT, R235 -/
  | encrypt
  /-- DECRYPT, R245 -/
  | decrypt
  /-- DRAW fd, R232 -/
  | draw (rd : FReg)
  deriving DecidableEq, Repr

end Sys2Proof
end

