-- ==== Sys2Proof/WellFormed.lean ====
section
/-! DEFINITION. Which terms of Instr are commands (30_encoding.md R103). The types of the operands already say that a
point-register number is at most 3 and that PGET's selector is at most 2; what is left is RDEC's rd ≠ ra. -/

namespace Sys2Proof

/-- R103(4): RDEC names two different destinations. Every other term is a command. -/
def Instr.wellFormed : Instr → Bool
  | .rdec rd ra => rd != ra
  | .nop | .setup | .zeroize => true
  | .modadd _ _ _ | .modsub _ _ _ | .modmul _ _ _ | .modsqr _ _ | .montmul _ _ _ => true
  | .tomont _ _ | .frommont _ _ | .modred _ _ _ | .modinv _ _ => true
  | .cmp _ _ | .mov _ _ | .ldi _ _ => true
  | .pdbl _ _ | .padd _ _ _ | .paff _ _ | .peq _ _ | .pisinf _ | .psetinf _ => true
  | .pldg _ | .pldq _ | .pmov _ _ | .pset _ _ _ | .pget _ _ _ | .onc _ _ => true
  | .pmul _ _ _ | .schk _ => true
  | .kdf | .renc _ _ | .ctsize | .ptsize | .encrypt | .decrypt | .draw _ => true

end Sys2Proof
end

