-- ==== Sys2Proof/Decode.lean ====
section
/-! DEFINITION. The command word (30_encoding.md R100 to R105): its five fields, the opcode table of R104 (op code and
what each register field names), the decoder in the order of R103, and the encoder written from the same table. A
command word is one 32-bit bus word; it is never laid out in memory (R87), so no byte order arises. -/

namespace Sys2Proof

/-- R100, bits 31:24. -/
def fieldOp (w : Word) : BitVec 8 := w.extractLsb' 24 8
/-- R100, bits 23:20. -/
def fieldRd (w : Word) : BitVec 4 := w.extractLsb' 20 4
/-- R100, bits 19:16. -/
def fieldRa (w : Word) : BitVec 4 := w.extractLsb' 16 4
/-- R100, bits 15:12. -/
def fieldRb (w : Word) : BitVec 4 := w.extractLsb' 12 4
/-- R100, bits 11:0. -/
def fieldZ (w : Word) : BitVec 12 := w.extractLsb' 0 12
/-- R101, format I: bits 15:0. -/
def fieldImm (w : Word) : BitVec 16 := w.extractLsb' 0 16

/-- The word with these fields (R100). -/
def wordOf (op : BitVec 8) (rd ra rb : BitVec 4) (z : BitVec 12) : Word := op ++ rd ++ ra ++ rb ++ z

/-- The word of format I with these fields (R101). -/
def wordOfImm (op : BitVec 8) (rd ra : BitVec 4) (imm : BitVec 16) : Word := op ++ rd ++ ra ++ imm

/-- The 37 assigned opcodes, by mnemonic (R104). -/
inductive Opcode where
  | nop | setup | zeroize | modadd | modsub | modmul | modsqr | montmul | tomont | frommont
  | modred | modinv | cmp | mov | ldi | pdbl | padd | paff | peq | pisinf
  | psetinf | pldg | pldq | pmov | pset | pget | onc | pmul | schk | kdf
  | renc | rdec | ctsize | ptsize | encrypt | decrypt | draw
  deriving DecidableEq, Repr

/-- The `op` column of R104. -/
def Opcode.code : Opcode → BitVec 8
  | .nop => 0x00
  | .setup => 0x01
  | .zeroize => 0x02
  | .modadd => 0x10
  | .modsub => 0x11
  | .modmul => 0x12
  | .modsqr => 0x13
  | .montmul => 0x14
  | .tomont => 0x15
  | .frommont => 0x16
  | .modred => 0x17
  | .modinv => 0x18
  | .cmp => 0x19
  | .mov => 0x1A
  | .ldi => 0x1B
  | .pdbl => 0x20
  | .padd => 0x21
  | .paff => 0x22
  | .peq => 0x23
  | .pisinf => 0x24
  | .psetinf => 0x25
  | .pldg => 0x26
  | .pldq => 0x27
  | .pmov => 0x28
  | .pset => 0x29
  | .pget => 0x2A
  | .onc => 0x2B
  | .pmul => 0x30
  | .schk => 0x31
  | .kdf => 0x40
  | .renc => 0x50
  | .rdec => 0x51
  | .ctsize => 0x52
  | .ptsize => 0x53
  | .encrypt => 0x60
  | .decrypt => 0x61
  | .draw => 0x62

/-- The rows of R104, in the table's order. -/
def Opcode.all : List Opcode :=
  [.nop, .setup, .zeroize, .modadd, .modsub, .modmul, .modsqr, .montmul, .tomont, .frommont,
   .modred, .modinv, .cmp, .mov, .ldi, .pdbl, .padd, .paff, .peq, .pisinf,
   .psetinf, .pldg, .pldq, .pmov, .pset, .pget, .onc, .pmul, .schk, .kdf,
   .renc, .rdec, .ctsize, .ptsize, .encrypt, .decrypt, .draw]

/-- R103(1): the row an op field selects, if any. -/
def Opcode.ofCode (b : BitVec 8) : Option Opcode := Opcode.all.find? fun o => o.code == b

/-- What a 4-bit register field of a command is (R104): must be zero, a field register, a point register, PGET's
selector. -/
inductive Slot where
  | zero | freg | preg | sel
  deriving DecidableEq, Repr

/-- The rd, ra, rb columns of R104, and whether bits 15:0 are LDI's immediate. -/
structure Format where
  rd : Slot
  ra : Slot
  rb : Slot
  imm : Bool
  deriving DecidableEq, Repr

/-- The `fmt`, rd, ra, rb columns of R104 (formats of R101). In LDI's row `rb` is part of the immediate. -/
def Opcode.format : Opcode → Format
  | .nop | .setup | .zeroize | .kdf | .ctsize | .ptsize | .encrypt | .decrypt => ⟨.zero, .zero, .zero, false⟩
  | .modadd | .modsub | .modmul | .montmul | .modred => ⟨.freg, .freg, .freg, false⟩
  | .modsqr | .tomont | .frommont | .modinv | .mov | .rdec => ⟨.freg, .freg, .zero, false⟩
  | .cmp | .onc | .renc => ⟨.zero, .freg, .freg, false⟩
  | .ldi => ⟨.freg, .zero, .zero, true⟩
  | .pdbl | .paff | .pmov => ⟨.preg, .preg, .zero, false⟩
  | .padd => ⟨.preg, .preg, .preg, false⟩
  | .peq => ⟨.zero, .preg, .preg, false⟩
  | .pisinf => ⟨.zero, .preg, .zero, false⟩
  | .psetinf | .pldg | .pldq => ⟨.preg, .zero, .zero, false⟩
  | .pset => ⟨.preg, .freg, .freg, false⟩
  | .pget => ⟨.freg, .preg, .sel, false⟩
  | .pmul => ⟨.preg, .preg, .freg, false⟩
  | .schk => ⟨.zero, .freg, .zero, false⟩
  | .draw => ⟨.freg, .zero, .zero, false⟩

/-- Why a word is illegal (R103, R105). Each ends in fault IllegalCommand. -/
inductive DecodeError where
  /-- (1) op is not one of the 37 opcodes -/
  | unknownOpcode
  /-- (2) a must-be-zero field is not zero -/
  | mustBeZero
  /-- (3) a point-register field is above 3 -/
  | pointRegister
  /-- (3) PGET's selector is above 2 -/
  | selector
  /-- (4) RDEC with rd = ra -/
  | sameDestination
  deriving DecidableEq, Repr

/-- R103(2) for one register field. -/
def Slot.zeroOk (k : Slot) (v : BitVec 4) : Bool := k != .zero || v == 0
/-- R103(3) for one register field that names a point register. -/
def Slot.pointOk (k : Slot) (v : BitVec 4) : Bool := k != .preg || v.toNat < 4
/-- R103(3) for one register field that is PGET's selector. -/
def Slot.selOk (k : Slot) (v : BitVec 4) : Bool := k != .sel || v.toNat < 3

/-- R103(2): every must-be-zero field of the format is zero. Format I has no rb and no z field. -/
def Format.zerosOk (F : Format) (w : Word) : Bool :=
  F.rd.zeroOk (fieldRd w) && F.ra.zeroOk (fieldRa w) && (F.imm || (F.rb.zeroOk (fieldRb w) && fieldZ w == 0))

/-- R103(3): every point-register field is at most 3. -/
def Format.pointsOk (F : Format) (w : Word) : Bool :=
  F.rd.pointOk (fieldRd w) && F.ra.pointOk (fieldRa w) && F.rb.pointOk (fieldRb w)

/-- R103(3): PGET's selector is at most 2. -/
def Format.selectorOk (F : Format) (w : Word) : Bool := F.rb.selOk (fieldRb w)

/-- A field-register number, unchanged from its field (R102). -/
def fregOf (v : BitVec 4) : FReg := ⟨v.toNat, v.isLt⟩
/-- A point-register number; the field is at most 3 when this is used. -/
def pregOf (v : BitVec 4) : PReg := ⟨v.toNat % 4, Nat.mod_lt _ (by decide)⟩
/-- PGET's selector: 0 is X, 1 is Y, 2 is Z (R172); the field is at most 2 when this is used. -/
def coordOf (v : BitVec 4) : Coord := if v = 0 then .x else if v = 1 then .y else .z

/-- The command of row `o` with the operands of the word's fields. -/
def Opcode.build (o : Opcode) (w : Word) : Instr :=
  let fd := fregOf (fieldRd w)
  let fa := fregOf (fieldRa w)
  let fb := fregOf (fieldRb w)
  let pd := pregOf (fieldRd w)
  let pa := pregOf (fieldRa w)
  let pb := pregOf (fieldRb w)
  match o with
  | .nop => .nop
  | .setup => .setup
  | .zeroize => .zeroize
  | .modadd => .modadd fd fa fb
  | .modsub => .modsub fd fa fb
  | .modmul => .modmul fd fa fb
  | .modsqr => .modsqr fd fa
  | .montmul => .montmul fd fa fb
  | .tomont => .tomont fd fa
  | .frommont => .frommont fd fa
  | .modred => .modred fd fa fb
  | .modinv => .modinv fd fa
  | .cmp => .cmp fa fb
  | .mov => .mov fd fa
  | .ldi => .ldi fd (fieldImm w)
  | .pdbl => .pdbl pd pa
  | .padd => .padd pd pa pb
  | .paff => .paff pd pa
  | .peq => .peq pa pb
  | .pisinf => .pisinf pa
  | .psetinf => .psetinf pd
  | .pldg => .pldg pd
  | .pldq => .pldq pd
  | .pmov => .pmov pd pa
  | .pset => .pset pd fa fb
  | .pget => .pget fd pa (coordOf (fieldRb w))
  | .onc => .onc fa fb
  | .pmul => .pmul pd pa fb
  | .schk => .schk fa
  | .kdf => .kdf
  | .renc => .renc fa fb
  | .rdec => .rdec fd fa
  | .ctsize => .ctsize
  | .ptsize => .ptsize
  | .encrypt => .encrypt
  | .decrypt => .decrypt
  | .draw => .draw fd

/-- The decoder, in the order of R103. It is total, and it reads no state other than the word. -/
def decode (w : Word) : Except DecodeError Instr :=
  match Opcode.ofCode (fieldOp w) with
  | none => .error .unknownOpcode
  | some o =>
    if !o.format.zerosOk w then .error .mustBeZero
    else if !o.format.pointsOk w then .error .pointRegister
    else if !o.format.selectorOk w then .error .selector
    else if !(o.build w).wellFormed then .error .sameDestination
    else .ok (o.build w)

/-- The instruction the decoder reads from a table row's word (the word's bit 0 is bit 0 of R100's word). -/
def decodeTableWord (nbits w : Nat) : Option Instr :=
  match decode (BitVec.ofNat 32 (w % 2 ^ nbits)) with
  | .ok i => some i
  | .error _ => none

/-- The field that holds a field-register number. -/
def ofFreg (r : FReg) : BitVec 4 := BitVec.ofNat 4 r.val
/-- The field that holds a point-register number. -/
def ofPreg (r : PReg) : BitVec 4 := BitVec.ofNat 4 r.val
/-- The field that holds PGET's selector. -/
def ofCoord : Coord → BitVec 4
  | .x => 0 | .y => 1 | .z => 2

/-- The word of a command (R100, R101, R104). -/
def encode : Instr → Word
  | .nop => wordOf (Opcode.code .nop) 0 0 0 0
  | .setup => wordOf (Opcode.code .setup) 0 0 0 0
  | .zeroize => wordOf (Opcode.code .zeroize) 0 0 0 0
  | .modadd rd ra rb => wordOf (Opcode.code .modadd) (ofFreg rd) (ofFreg ra) (ofFreg rb) 0
  | .modsub rd ra rb => wordOf (Opcode.code .modsub) (ofFreg rd) (ofFreg ra) (ofFreg rb) 0
  | .modmul rd ra rb => wordOf (Opcode.code .modmul) (ofFreg rd) (ofFreg ra) (ofFreg rb) 0
  | .modsqr rd ra => wordOf (Opcode.code .modsqr) (ofFreg rd) (ofFreg ra) 0 0
  | .montmul rd ra rb => wordOf (Opcode.code .montmul) (ofFreg rd) (ofFreg ra) (ofFreg rb) 0
  | .tomont rd ra => wordOf (Opcode.code .tomont) (ofFreg rd) (ofFreg ra) 0 0
  | .frommont rd ra => wordOf (Opcode.code .frommont) (ofFreg rd) (ofFreg ra) 0 0
  | .modred rd ra rb => wordOf (Opcode.code .modred) (ofFreg rd) (ofFreg ra) (ofFreg rb) 0
  | .modinv rd ra => wordOf (Opcode.code .modinv) (ofFreg rd) (ofFreg ra) 0 0
  | .cmp ra rb => wordOf (Opcode.code .cmp) 0 (ofFreg ra) (ofFreg rb) 0
  | .mov rd ra => wordOf (Opcode.code .mov) (ofFreg rd) (ofFreg ra) 0 0
  | .ldi rd imm => wordOfImm (Opcode.code .ldi) (ofFreg rd) 0 imm
  | .pdbl rd ra => wordOf (Opcode.code .pdbl) (ofPreg rd) (ofPreg ra) 0 0
  | .padd rd ra rb => wordOf (Opcode.code .padd) (ofPreg rd) (ofPreg ra) (ofPreg rb) 0
  | .paff rd ra => wordOf (Opcode.code .paff) (ofPreg rd) (ofPreg ra) 0 0
  | .peq ra rb => wordOf (Opcode.code .peq) 0 (ofPreg ra) (ofPreg rb) 0
  | .pisinf ra => wordOf (Opcode.code .pisinf) 0 (ofPreg ra) 0 0
  | .psetinf rd => wordOf (Opcode.code .psetinf) (ofPreg rd) 0 0 0
  | .pldg rd => wordOf (Opcode.code .pldg) (ofPreg rd) 0 0 0
  | .pldq rd => wordOf (Opcode.code .pldq) (ofPreg rd) 0 0 0
  | .pmov rd ra => wordOf (Opcode.code .pmov) (ofPreg rd) (ofPreg ra) 0 0
  | .pset rd ra rb => wordOf (Opcode.code .pset) (ofPreg rd) (ofFreg ra) (ofFreg rb) 0
  | .pget rd ra sel => wordOf (Opcode.code .pget) (ofFreg rd) (ofPreg ra) (ofCoord sel) 0
  | .onc ra rb => wordOf (Opcode.code .onc) 0 (ofFreg ra) (ofFreg rb) 0
  | .pmul rd ra rb => wordOf (Opcode.code .pmul) (ofPreg rd) (ofPreg ra) (ofFreg rb) 0
  | .schk ra => wordOf (Opcode.code .schk) 0 (ofFreg ra) 0 0
  | .kdf => wordOf (Opcode.code .kdf) 0 0 0 0
  | .renc ra rb => wordOf (Opcode.code .renc) 0 (ofFreg ra) (ofFreg rb) 0
  | .rdec rd ra => wordOf (Opcode.code .rdec) (ofFreg rd) (ofFreg ra) 0 0
  | .ctsize => wordOf (Opcode.code .ctsize) 0 0 0 0
  | .ptsize => wordOf (Opcode.code .ptsize) 0 0 0 0
  | .encrypt => wordOf (Opcode.code .encrypt) 0 0 0 0
  | .decrypt => wordOf (Opcode.code .decrypt) 0 0 0 0
  | .draw rd => wordOf (Opcode.code .draw) (ofFreg rd) 0 0 0

end Sys2Proof
end

