-- ==== Sys2Proof/Machine/Memory.lean ====
section
/-! DEFINITION. The six buffers (20_memory.md R72) as one memory over the host bus space (R71): the bytes of a buffer
are the same bytes whether a command or the host reads them (R70). A list of (address, byte) pairs in one canonical
form: addresses strictly rising, and no entry holding what an unlisted address reads as, which is 0 (R48). -/

namespace Sys2Proof.Machine

/-- The buffers' bytes, keyed by host bus address. -/
abbrev Memory := List Host.Cell

/-- R48: every byte of every buffer is 0 after reset, so an address that is not listed reads as 0. -/
def Memory.blank : Byte := 0

/-- The byte at address `a`. -/
def Memory.read : Memory → Nat → Byte
  | [], _ => Memory.blank
  | (k, v) :: t, a => if a = k then v else Memory.read t a

/-- Store byte `b` at address `a`, keeping the canonical form. -/
def Memory.write : Memory → Nat → Byte → Memory
  | [], a, b => if b = Memory.blank then [] else [(a, b)]
  | (k, v) :: t, a, b =>
    if a < k then (if b = Memory.blank then (k, v) :: t else (a, b) :: (k, v) :: t)
    else if a = k then (if b = Memory.blank then t else (a, b) :: t)
    else (k, v) :: Memory.write t a b

/-- `BUF[i..) <- s` of R12: the bytes `s` at consecutive addresses from `a`. -/
def Memory.writeBytes : Memory → Nat → List Byte → Memory
  | m, _, [] => m
  | m, a, b :: s => Memory.writeBytes (m.write a b) (a + 1) s

/-- The `n` bytes from address `a`. -/
def Memory.readBytes (m : Memory) (a n : Nat) : List Byte := (List.range n).map fun i => m.read (a + i)

/-- Set the `n` bytes from address `a` to 0. -/
def Memory.clear (m : Memory) (a n : Nat) : Memory := m.filter fun c => !(a ≤ c.1 && c.1 < a + n)

/-- Every listed address is above `lo`, and the canonical form holds. -/
def Memory.wfAbove : Nat → Memory → Bool
  | _, [] => true
  | lo, (k, v) :: t => lo < k && v != Memory.blank && Memory.wfAbove k t

/-- The canonical form: addresses strictly rising, no entry that holds 0. -/
def Memory.wf : Memory → Bool
  | [] => true
  | (k, v) :: t => v != Memory.blank && Memory.wfAbove k t

end Sys2Proof.Machine
end

