-- ==== Sys2Proof/Machine/State.lean ====
section
/-! DEFINITION. The state of one SM2-CORE instance (10_state.md R20), grouped as R20 groups it, as plain data; the
configuration it was built with; the schedule of the outside world; and the state after reset (R48). -/

namespace Sys2Proof.Machine

/-- A stop of the machine. There is none: "Nothing in this spec is undefined behaviour: for every state and every host
action one of the rows above or a rule gives the outcome" (93_implementation_defined.md). The block's own faults (R261)
are states, not stops: they are `CmdFault` below. Nothing raises this; safe (log 12). -/
inductive Fault where
  deriving DecidableEq, Repr

/-- Why an instruction has no meaning in the model. -/
inductive Refusal where
  /-- An arm of exec that has no meaning yet; raised by no arm of this model. Safe. -/
  | notModelled (mnemonic : String)
  deriving DecidableEq, Repr

/-- The faults of a command (60_exceptions.md R261). -/
inductive CmdFault where
  /-- the accepted word is not well-formed (R103) -/
  | illegalCommand
  /-- PVALID = 0 and the command needs the SETUP constants (R108(a)) -/
  | paramsNotReady
  /-- SETUP's parameters, or CTRL.HSEL ≥ NHASH -/
  | badParam
  /-- a register operand ≥ P (R131, R160) -/
  | operandRange
  /-- MODINV of 0 -/
  | notInvertible
  /-- a scalar outside [1, N - 1] -/
  | invalidScalar
  /-- no usable scalar -/
  | randomnessExhausted
  /-- a point that must be finite is not -/
  | pointAtInfinity
  /-- ENCRYPT's Q is not on the curve -/
  | invalidCurvePoint
  /-- DECRYPT: tag mismatch, C1 off the curve, S at infinity (R246) -/
  | authenticationFailed
  /-- a malformed record -/
  | invalidEncoding
  /-- OUTCAP too small -/
  | bufferTooSmall
  /-- a length register beyond its buffer's capacity -/
  | invalidLength
  deriving DecidableEq, Repr

/-- A Jacobian triple (10_state.md R25). -/
structure Triple where
  x : Nat
  y : Nat
  z : Nat
  deriving DecidableEq, Repr

/-- INF (R13): the triple every command that produces the point at infinity writes. -/
def Triple.inf : Triple := ⟨0, 0, 0⟩

/-- (a) of R20: the domain-parameter registers (R21). -/
structure Params where
  p : Nat
  a : Nat
  b : Nat
  gx : Nat
  gy : Nat
  n : Nat
  cof : Word
  deriving DecidableEq, Repr

/-- (b) of R20: the key registers (R22). -/
structure Keys where
  qx : Nat
  qy : Nat
  d : Nat
  deriving DecidableEq, Repr

/-- (c) of R20: the derived constants (R23). Their valid flag PVALID is a bit of STATUS. -/
structure Consts where
  rr : Nat
  mu : Nat
  pinv0 : Word
  deriving DecidableEq, Repr

/-- (f) of R20: the condition flags (R28). -/
structure Flags where
  z : Bool
  c : Bool
  i : Bool
  v : Bool
  deriving DecidableEq, Repr

/-- STATUS bits 0 to 4 (R32); bits 8 to 11 are `Flags`. -/
structure Status where
  busy : Bool
  done : Bool
  err : Bool
  drop : Bool
  pvalid : Bool
  deriving DecidableEq, Repr

/-- CTRL (R34). -/
structure Ctrl where
  ieDone : Bool
  ieErr : Bool
  hsel : BitVec 2
  noempty : Bool
  testrng : Bool
  deriving DecidableEq, Repr

/-- The other control and status registers: ERRCODE (R33), MAXATT (R35), ATT (R36), MSGLEN (R37), RECLEN (R38), OUTCAP
(R39), RESULT (R40), SEEDLEN and KSLEN (R41), RNGLEN and RNGPOS (R42). -/
structure Regs where
  errcode : BitVec 8
  maxatt : BitVec 8
  att : BitVec 8
  msglen : Word
  reclen : Word
  outcap : Word
  result : Word
  seedlen : BitVec 8
  kslen : Word
  rnglen : BitVec 9
  rngpos : BitVec 9
  deriving DecidableEq, Repr

/-- The states of the sequencer (45_engine.md R250 to R252), by the names of those tables. -/
inductive Phase where
  | idle | exec
  | eCheck | eDraw | eC1 | eS | eKdf | eXor | eTag | eEnc | eWipe
  | dCheck | dDec | dOnc | dS | dKdf | dXor | dTag | dCmp | dWipe
  | kInit | kSeed | kCtr | kFin | kOut
  deriving DecidableEq, Repr

/-- The hidden scratch (R46, R192): the command being run and what the sequencer holds between two phases. -/
structure Scratch where
  /-- the accepted command word (R31) -/
  cmd : Word
  /-- the fault the command will end with, once a phase has found it -/
  fault : Option CmdFault
  /-- draws made so far (R235) -/
  att : Nat
  /-- RNGPOS as the draws have moved it -/
  rngpos : BitVec 9
  /-- the production source's counter as the draws have moved it -/
  freeCtr : Nat
  /-- the ephemeral scalar k -/
  k : Nat
  /-- C1 = [k]G -/
  c1 : Triple
  /-- S = [k]Q or [d]C1 -/
  sh : Triple
  x1 : Nat
  y1 : Nat
  x2 : Nat
  y2 : Nat
  /-- the message M latched by E_CHECK, or the candidate M' of D_XOR -/
  msg : List Byte
  /-- the keystream t -/
  t : List Byte
  /-- C2 -/
  body : List Byte
  /-- the decoded tag -/
  tag : List Byte
  /-- C3, or the recomputed digest u -/
  u : List Byte
  /-- the encoded record -/
  record : List Byte
  /-- the KDF counter CT -/
  ct : Word
  /-- the KDF output position KPOS -/
  kpos : Nat
  /-- the bytes streamed to the hash engine in the open request -/
  stream : List Byte
  /-- the digest latch -/
  digest : List Byte
  deriving DecidableEq, Repr

/-- R46: every bit of the scratch is 0 whenever BUSY = 0. -/
def Scratch.zero : Scratch :=
  { cmd := 0, fault := none, att := 0, rngpos := 0, freeCtr := 0, k := 0, c1 := .inf, sh := .inf, x1 := 0, y1 := 0,
    x2 := 0, y2 := 0, msg := [], t := [], body := [], tag := [], u := [], record := [], ct := 0, kpos := 0,
    stream := [], digest := [] }

/-- What the host can do (R8): the bus accesses of 20_memory.md R76, R77 (`bytes` is the access width, so that an access
R78 does not perform can be named, log 14), and the reset input (70_reset_and_hazards.md R290). -/
inductive Access where
  | read (addr : Word) (bytes : Nat)
  | write (addr : Word) (bytes : Nat) (v : Word)
  | reset
  deriving DecidableEq, Repr

/-- Who moves next (log 2): the host makes one access; the core goes one phase further on the running command's path;
or the core brings the running command to completion. -/
inductive Turn where
  | host (a : Access)
  | phase
  | core
  deriving DecidableEq, Repr

/-- The state. The groups are those of 10_state.md R20. -/
structure State where
  /-- the parameters of R6; no step writes them (log 1) -/
  cfg : Config
  /-- (a) domain parameters -/
  params : Params
  /-- (b) keys -/
  keys : Keys
  /-- (c) derived constants -/
  consts : Consts
  /-- (d) field registers f[0..15] -/
  f : Vector Nat 16
  /-- (e) point registers pt[0..3] -/
  pt : Vector Triple 4
  /-- (f) condition flags -/
  flags : Flags
  /-- (g) STATUS bits 0 to 4 -/
  status : Status
  /-- (g) CTRL -/
  ctrl : Ctrl
  /-- (g) the other control and status registers -/
  regs : Regs
  /-- (g) PHASE -/
  phase : Phase
  /-- (h) the six buffers -/
  mem : Memory
  /-- (i) hidden scratch -/
  scratch : Scratch
  /-- the model's own: what the outside world does next, oldest first; with none left, the core completes (log 2) -/
  turns : List Turn
  /-- the model's own: the word the last MemRead returned (log 2) -/
  reply : Word
  /-- the model's own: the number of the production random source's next answer (log 5) -/
  freeCtr : Nat
  deriving DecidableEq, Repr

/-- The state after reset of an instance built with configuration `cfg` (R48, R290). The values of `turns`, `reply` and
`freeCtr`, which are the model's own, are DESIGN CHOICES (log 2, log 5). -/
def State.resetOf (cfg : Config) : State :=
  { cfg := cfg
    params := { p := 0, a := 0, b := 0, gx := 0, gy := 0, n := 0, cof := 0 }
    keys := { qx := 0, qy := 0, d := 0 }
    consts := { rr := 0, mu := 0, pinv0 := 0 }
    f := Vector.replicate 16 0
    pt := Vector.replicate 4 .inf
    flags := { z := false, c := false, i := false, v := false }
    status := { busy := false, done := false, err := false, drop := false, pvalid := false }
    ctrl := { ieDone := false, ieErr := false, hsel := 0, noempty := false, testrng := false }
    regs := { errcode := 0, maxatt := 16, att := 0, msglen := 0, reclen := 0, outcap := 0, result := 0, seedlen := 0,
              kslen := 0, rnglen := 0, rngpos := 0 }
    phase := .idle
    mem := []
    scratch := .zero
    turns := []
    reply := 0
    freeCtr := 0 }

/-- The machine right after reset, in the reference configuration of R6 (log 1). -/
def State.reset : State := State.resetOf .cfg256

end Sys2Proof.Machine
end

