-- ==== Sys2Proof/Machine/Curve.lean ====
section
/-! DEFINITION. The point functions (42_point.md): doubling R161, addition R174, scalar multiplication R175, affine
conversion R178, curve membership R179, equality R165. `p` and `a` are the values of registers P and A; every operation
is an exact residue modulo p (R160). -/

namespace Sys2Proof.Machine

/-- `JDbl(X1, Y1, Z1)` of R161. -/
def jdbl (p a : Nat) (T : Triple) : Triple :=
  if T.z = 0 ∨ T.y = 0 then .inf
  else
    let yy := mulP p T.y T.y
    let zz := mulP p T.z T.z
    let s := mulP p (mulP p 4 T.x) yy
    let m := addP p (mulP p 3 (mulP p T.x T.x)) (mulP p a (mulP p zz zz))
    let x3 := subP p (mulP p m m) (mulP p 2 s)
    let y3 := subP p (mulP p m (subP p s x3)) (mulP p 8 (mulP p yy yy))
    let z3 := mulP p (mulP p 2 T.y) T.z
    ⟨x3, y3, z3⟩

/-- `JAdd((X1, Y1, Z1), (X2, Y2, Z2))` of R174. -/
def jadd (p a : Nat) (T1 T2 : Triple) : Triple :=
  if T1.z = 0 ∧ T2.z = 0 then .inf
  else if T1.z = 0 then T2
  else if T2.z = 0 then T1
  else
    let z1z1 := mulP p T1.z T1.z
    let z2z2 := mulP p T2.z T2.z
    let u1 := mulP p T1.x z2z2
    let u2 := mulP p T2.x z1z1
    let s1 := mulP p T1.y (mulP p z2z2 T2.z)
    let s2 := mulP p T2.y (mulP p z1z1 T1.z)
    let h := subP p u2 u1
    let r := subP p s2 s1
    if h = 0 then (if r = 0 then jdbl p a T1 else .inf)
    else
      let hh := mulP p h h
      let hhh := mulP p hh h
      let v := mulP p u1 hh
      let x3 := subP p (subP p (mulP p r r) hhh) (mulP p 2 v)
      let y3 := subP p (mulP p r (subP p v x3)) (mulP p s1 hhh)
      let z3 := mulP p (mulP p h T1.z) T2.z
      ⟨x3, y3, z3⟩

/-- The loop of R175 over the bits `n − 1` down to 0 of `k`, from the accumulator `acc`: both operations run for every
bit, and the bit selects. -/
def jmulLoop (p a k : Nat) (T : Triple) : Nat → Triple → Triple
  | 0, acc => acc
  | n + 1, acc =>
    let d := jdbl p a acc
    let t := jadd p a d T
    jmulLoop p a k T n (if k.testBit n then t else d)

/-- `JMul(k, T)` of R175: exactly W bits, most significant first, from (0, 0, 0). -/
def jmul (W p a k : Nat) (T : Triple) : Triple := jmulLoop p a k T W .inf

/-- `ToAffine(X, Y, Z)` of R178. -/
def toAffine (W p : Nat) (T : Triple) : Nat × Nat :=
  let zi := fermatInv W p T.z
  let zi2 := mulP p zi zi
  (mulP p T.x zi2, mulP p T.y (mulP p zi2 zi))

/-- `OnCurve(x, y)` of R179: a value that is not a field element is not on the curve. -/
def onCurve (p a b x y : Nat) : Bool :=
  x < p && y < p && mulP p y y == addP p (addP p (mulP p (mulP p x x) x) (mulP p a x)) b

/-- `PointEq` of R165. -/
def pointEq (p : Nat) (T1 T2 : Triple) : Bool :=
  if T1.z = 0 ∧ T2.z = 0 then true
  else if T1.z = 0 ∨ T2.z = 0 then false
  else
    let z1z1 := mulP p T1.z T1.z
    let z2z2 := mulP p T2.z T2.z
    mulP p T1.x z2z2 == mulP p T2.x z1z1 &&
      mulP p T1.y (mulP p z2z2 T2.z) == mulP p T2.y (mulP p z1z1 T1.z)

/-- `ValidScalar(k)` of R177: 1 ≤ k ≤ N − 1, and no k when N ≤ 1. -/
def validScalar (n k : Nat) : Bool := 1 ≤ k && k < n

end Sys2Proof.Machine
end

