-- ==== Sys2Proof/Machine/Bytes.lean ====
section
/-! DEFINITION. Byte strings (00_scope.md R11): the two big-endian conversions, slices and the byte-wise exclusive or.
Every integer that crosses an interface is big-endian (20_memory.md R74). -/

namespace Sys2Proof.Machine

/-- `I2OSP(v, n)`: the `n`-byte big-endian encoding of `v` (of its low `8 n` bits, where R11 leaves it undefined). -/
def i2osp (v : Nat) : Nat → List Byte
  | 0 => []
  | n + 1 => i2osp (v / 256) n ++ [BitVec.ofNat 8 v]

/-- `OS2IP(s)`: the integer a byte string stands for; 0 for the empty string. -/
def os2ip (s : List Byte) : Nat := s.foldl (fun acc b => acc * 256 + b.toNat) 0

/-- `BE32(c) = I2OSP(c, 4)`. -/
def be32 (c : Nat) : List Byte := i2osp c 4

/-- `XOR(s, t)`, the byte-wise exclusive or of two strings of equal length. -/
def xorBytes (s t : List Byte) : List Byte := List.zipWith (fun a b => a ^^^ b) s t

/-- Byte `i` (0 is the most significant) of the `n`-byte big-endian image of `v`. -/
def byteAt (v n i : Nat) : Byte := BitVec.ofNat 8 (v / 256 ^ (n - 1 - i))

/-- `v` with byte `i` of its `n`-byte big-endian image replaced by `b`. -/
def setByteAt (v n i : Nat) (b : Byte) : Nat :=
  let unit := 256 ^ (n - 1 - i)
  v / (unit * 256) * (unit * 256) + b.toNat * unit + v % unit

/-- The word whose byte lanes [31:24], [23:16], [15:8], [7:0] are these bytes (20_memory.md R75). -/
def wordOfBytes (b0 b1 b2 b3 : Byte) : Word :=
  BitVec.ofNat 32 (b0.toNat * 2 ^ 24 + b1.toNat * 2 ^ 16 + b2.toNat * 2 ^ 8 + b3.toNat)

/-- The byte in lane `i` of a bus word, lane 0 being bits [31:24] (20_memory.md R75). -/
def laneOf (v : Word) (i : Nat) : Byte := BitVec.ofNat 8 (v.toNat / 256 ^ (3 - i))

end Sys2Proof.Machine
end

