-- ==== Sys2Proof/Machine/Ops.lean ====
section
/-! DEFINITION. The named operations over registers and buffers (00_scope.md R12), and the three things that end or
start a command: acceptance (10_state.md R31), completion (60_exceptions.md R260) and taking a fault (R262), with the
return from a fault, the host's acknowledgement (R265), beside them. -/

namespace Sys2Proof.Machine

/-- The code ERRCODE takes (R261). -/
def CmdFault.code : CmdFault → BitVec 8
  | .illegalCommand => 0x01
  | .paramsNotReady => 0x02
  | .badParam => 0x03
  | .operandRange => 0x04
  | .notInvertible => 0x05
  | .invalidScalar => 0x06
  | .randomnessExhausted => 0x07
  | .pointAtInfinity => 0x08
  | .invalidCurvePoint => 0x09
  | .authenticationFailed => 0x0A
  | .invalidEncoding => 0x0B
  | .bufferTooSmall => 0x0C
  | .invalidLength => 0x0D

/-- The code PHASE shows (45_engine.md R250 to R252, 43_kdf.md R192). -/
def Phase.code : Phase → BitVec 8
  | .idle => 0x00 | .exec => 0x01
  | .eCheck => 0x10 | .eDraw => 0x11 | .eC1 => 0x12 | .eS => 0x13 | .eKdf => 0x14
  | .eXor => 0x15 | .eTag => 0x16 | .eEnc => 0x17 | .eWipe => 0x18
  | .dCheck => 0x20 | .dDec => 0x21 | .dOnc => 0x22 | .dS => 0x23 | .dKdf => 0x24
  | .dXor => 0x25 | .dTag => 0x26 | .dCmp => 0x27 | .dWipe => 0x28
  | .kInit => 0x30 | .kSeed => 0x31 | .kCtr => 0x32 | .kFin => 0x33 | .kOut => 0x34

namespace State

/-- `f[r]` (R12, R24). -/
def getF (s : State) (r : FReg) : Nat := s.f.get r
/-- `f[r] <- v` (R12, R24). -/
def setF (s : State) (r : FReg) (v : Nat) : State := { s with f := s.f.set r.val v r.isLt }
/-- `pt[j]` (R12, R25). -/
def getPt (s : State) (j : PReg) : Triple := s.pt.get j
/-- `pt[j] <- (X, Y, Z)` (R12, R25). -/
def setPt (s : State) (j : PReg) (T : Triple) : State := { s with pt := s.pt.set j.val T j.isLt }

/-- The hash number CTRL.HSEL names (R34). -/
def hsel (s : State) : Nat := s.ctrl.hsel.toNat
/-- DLEN[CTRL.HSEL] (R6). -/
def dlen (s : State) : Nat := s.cfg.digestLen s.hsel
/-- CTRL.TESTRNG as it reads: 0 when TEST_EN = 0 (R34, R275; 93_implementation_defined.md I13). -/
def testrng (s : State) : Bool := s.ctrl.testrng && s.cfg.testEn

end State

/-- The six buffers (20_memory.md R72). -/
inductive Buffer where
  | msg | ks | record | tag | seed | rngbuf
  deriving DecidableEq, Repr

/-- Where a buffer lies in the host bus space (R71). -/
def Buffer.base : Buffer → Nat
  | .msg => 0x1000000 | .ks => 0x2000000 | .record => 0x3000000
  | .tag => 0xC00 | .seed => 0xC80 | .rngbuf => 0xD00

/-- A buffer's capacity (R72). -/
def Buffer.cap (c : Config) : Buffer → Nat
  | .msg => c.msgCap | .ks => c.msgCap | .record => c.recCap
  | .tag => 64 | .seed => 128 | .rngbuf => 256

namespace State

/-- `BUF[0..n)` (R12, R80: a command starts at byte 0). -/
def readBuf (s : State) (b : Buffer) (n : Nat) : List Byte := s.mem.readBytes b.base n
/-- `BUF[0..len(bs)) <- bs` (R12, R80). -/
def writeBuf (s : State) (b : Buffer) (bs : List Byte) : State := { s with mem := s.mem.writeBytes b.base bs }
/-- `BUF[0..cap) <- zeros`. -/
def clearBuf (s : State) (b : Buffer) : State := { s with mem := s.mem.clear b.base (b.cap s.cfg) }

/-- Acceptance of a command word (R31): BUSY <- 1, DONE <- 0, and the sequencer leaves IDLE for the command's first
phase `ph` (45_engine.md R253(a)). -/
def accept (s : State) (w : Word) (ph : Phase) : State :=
  { s with
    status := { s.status with busy := true, done := false }
    phase := ph
    scratch := { Scratch.zero with cmd := w } }

/-- Completion without fault (R260). -/
def complete (s : State) : State :=
  { s with
    status := { s.status with busy := false, done := true }
    phase := .idle
    scratch := .zero }

/-- `raise F` (R262): taking a fault. It is the only way a command ends abnormally. -/
def raise (F : CmdFault) (s : State) : State :=
  { s with
    status := { s.status with busy := false, done := true, err := true }
    regs := { s.regs with errcode := F.code }
    phase := .idle
    scratch := .zero }

/-- The host's write of `v` to STATUS (R32, R265): each of DONE, ERR, DROP whose written bit is 1 is cleared; clearing
ERR, the return from a fault, also sets ERRCODE to 0. -/
def acknowledge (s : State) (v : Word) : State :=
  { s with
    status := { s.status with
      done := s.status.done && !v.getLsbD 1
      err := s.status.err && !v.getLsbD 2
      drop := s.status.drop && !v.getLsbD 3 }
    regs := { s.regs with errcode := if v.getLsbD 2 then 0 else s.regs.errcode } }

/-- STATUS.DROP <- 1: a host access was not performed (R31, R78, R79). -/
def setDrop (s : State) : State := { s with status := { s.status with drop := true } }

/-- The irq line (R268): a level, a function of the state, which feeds back into nothing (log 10). -/
def irq (s : State) : Bool := (s.status.done && s.ctrl.ieDone) || (s.status.err && s.ctrl.ieErr)

/-- The word of the command to run: what the accepted CMD write held (R27, R31). -/
def fetch (s : State) : Word := s.scratch.cmd

end State

/-- The first listed condition that holds is the fault reported (R263, R264). -/
def firstFault : List (Bool × CmdFault) → Option CmdFault
  | [] => none
  | (bad, F) :: rest => if bad then some F else firstFault rest

/-- A command with checks (R108): the first failing check ends it with its fault and changes nothing else (R262); when
none fails the command ends in `k`. -/
def State.guarded (s : State) (checks : List (Bool × CmdFault)) (k : State) : State :=
  match firstFault checks with
  | some F => s.raise F
  | none => k

end Sys2Proof.Machine
end

