-- ==== Sys2Proof/Machine/Operands.lean ====
section
/-! DEFINITION. Every operand form and every shared operand check (30_encoding.md R102, R108; 41_modarith.md R131;
42_point.md R160). A check is a condition that must not hold, with the fault it raises. -/

namespace Sys2Proof.Machine

/-- R108(a): the command needs PVALID. -/
def needParams (s : State) : Bool × CmdFault := (!s.status.pvalid, .paramsNotReady)
/-- R108(b): the command needs a hash. -/
def needHash (s : State) : Bool × CmdFault := (decide (s.hsel ≥ s.cfg.nhash), .badParam)
/-- R131: f[r] must hold a field element. -/
def needField (s : State) (r : FReg) : Bool × CmdFault := (decide (s.getF r ≥ s.params.p), .operandRange)
/-- R160: pt[j] must hold three field elements. -/
def needPoint (s : State) (j : PReg) : Bool × CmdFault :=
  (decide ((s.getPt j).x ≥ s.params.p ∨ (s.getPt j).y ≥ s.params.p ∨ (s.getPt j).z ≥ s.params.p), .operandRange)

/-- PGET's operand (R172): the coordinate the selector names. -/
def Triple.coord (T : Triple) : Coord → Nat
  | .x => T.x | .y => T.y | .z => T.z

/-- LDI's operand (R102): the zero-extended immediate modulo 2^W. -/
def immValue (c : Config) (imm : BitVec 16) : Nat := imm.toNat % 2 ^ c.fieldBits

namespace State

/-- The base point as a triple, (GX, GY, 1) (R168). -/
def basePoint (s : State) : Triple := ⟨s.params.gx, s.params.gy, 1⟩
/-- The public point as a triple, (QX, QY, 1) (R169). -/
def publicPoint (s : State) : Triple := ⟨s.keys.qx, s.keys.qy, 1⟩

/-- MontMul with the state's parameters (R135): w, s, P, PINV0. -/
def mont (s : State) (a b : Nat) : Nat :=
  montMul s.cfg.limbBits s.cfg.nlimbs s.params.p s.consts.pinv0.toNat a b
/-- JMul with the state's parameters (R175). -/
def scalarMul (s : State) (k : Nat) (T : Triple) : Triple := jmul s.cfg.fieldBits s.params.p s.params.a k T
/-- ToAffine with the state's parameters (R178). -/
def affine (s : State) (T : Triple) : Nat × Nat := toAffine s.cfg.fieldBits s.params.p T
/-- OnCurve with the state's parameters (R179). -/
def isOnCurve (s : State) (x y : Nat) : Bool := onCurve s.params.p s.params.a s.params.b x y
/-- `FE(v)` (R11, 45_engine.md R233): FLEN bytes, leading zeros kept. -/
def fe (s : State) (v : Nat) : List Byte := i2osp v s.cfg.flen

end State
end Sys2Proof.Machine
end

