-- ==== Sys2Proof/Machine/Codec.lean ====
section
/-! DEFINITION. The ciphertext record coder and decoder (44_codec.md): Encode R204, the parser R210 to R213, and the
commands CTSIZE R207, RENC R209, RDEC R214, PTSIZE R215. The sizes are in Sizing.lean. -/

namespace Sys2Proof.Machine

/-- Tag byte of the container (R200). -/
def tagSequence : Byte := 0x30
/-- Tag byte of an INTEGER (R200). -/
def tagInteger : Byte := 0x02
/-- Tag byte of an OCTET STRING (R200). -/
def tagOctets : Byte := 0x04

/-- `LenEnc(n)` of R201: the shortest form. -/
def lenEnc (n : Nat) : List Byte :=
  if n < 128 then [BitVec.ofNat 8 n]
  else if n < 256 then 0x81 :: i2osp n 1
  else if n < 65536 then 0x82 :: i2osp n 2
  else if n < 2 ^ 24 then 0x83 :: i2osp n 3
  else 0x84 :: i2osp n 4

/-- `IntContent(v)` of R202, for v below 256^F: no leading zero byte, a pad byte when the top bit is set, one byte 00 for
zero. -/
def intContent (F v : Nat) : List Byte :=
  if v = 0 then [0]
  else
    let s := (i2osp v F).dropWhile (· == 0)
    if s.headD 0 ≥ 0x80 then 0 :: s else s

/-- `TLV(tag, c)` of R203. -/
def tlv (tag : Byte) (c : List Byte) : List Byte := tag :: (lenEnc c.length ++ c)

/-- `Encode(x1, y1, tag, body)` of R204, with FLEN = F. The order is x1, y1, tag, body (R205). -/
def encodeRecord (F x1 y1 : Nat) (tag body : List Byte) : List Byte :=
  tlv tagSequence
    (tlv tagInteger (intContent F x1) ++ tlv tagInteger (intContent F y1) ++ tlv tagOctets tag ++ tlv tagOctets body)

/-- The length bytes of R210, from the first one, `b`: the length and the bytes after them; none is InvalidEncoding. -/
def readLen (b : Byte) (rest : List Byte) : Option (Nat × List Byte) :=
  if b < 0x80 then some (b.toNat, rest)
  else
    let k := (b &&& 0x7F).toNat
    if k = 0 ∨ k > 4 then none
    else if rest.length < k then none
    else
      let n := os2ip (rest.take k)
      if n < 128 then none
      else if k > 1 ∧ n < 2 ^ (8 * (k - 1)) then none
      else some (n, rest.drop k)

/-- `ReadTLV` of R210. `buf` is what lies between the read position and the end; the answer is the content and what lies
after it; none is InvalidEncoding. -/
def readTLV (tag : Byte) : List Byte → Option (List Byte × List Byte)
  | [] => none
  | [_] => none
  | t :: b :: rest =>
    if t ≠ tag then none
    else
      match readLen b rest with
      | none => none
      | some (n, after) => if n > after.length then none else some (after.take n, after.drop n)

/-- The four content byte strings of a record (R211). -/
structure RawRecord where
  xb : List Byte
  yb : List Byte
  tb : List Byte
  bb : List Byte
  deriving DecidableEq, Repr

/-- `ParseStructure(buf)` of R211: the record fills the buffer exactly; none is InvalidEncoding. -/
def parseStructure (buf : List Byte) : Option RawRecord :=
  match readTLV tagSequence buf with
  | some (content, []) =>
    match readTLV tagInteger content with
    | none => none
    | some (xb, r1) =>
      match readTLV tagInteger r1 with
      | none => none
      | some (yb, r2) =>
        match readTLV tagOctets r2 with
        | none => none
        | some (tb, r3) =>
          match readTLV tagOctets r3 with
          | some (bb, []) => some ⟨xb, yb, tb, bb⟩
          | _ => none
  | _ => none

/-- `DecodeInt(s)` of R212, with FLEN = F; none is InvalidEncoding. -/
def decodeInt (F : Nat) (s : List Byte) : Option Nat :=
  if s.length = 0 then none
  else if s.headD 0 ≥ 0x80 then none
  else if s.length > 1 ∧ s.headD 0 = 0 ∧ s.getD 1 0 < 0x80 then none
  else if s.length > F + 1 then none
  else if s.length = F + 1 ∧ s.headD 0 ≠ 0 then none
  else some (os2ip s)

/-- The check `PlainLen` and `DecodeRecord` share (R213): the tag has D bytes, and the body is not empty when `ne`. -/
def recordFits (D : Nat) (ne : Bool) (r : RawRecord) : Bool := r.tb.length == D && !(ne && r.bb.isEmpty)

/-- `PlainLen(buf, D, ne)` of R213; none is InvalidEncoding. -/
def plainLen (buf : List Byte) (D : Nat) (ne : Bool) : Option Nat :=
  match parseStructure buf with
  | none => none
  | some r => if recordFits D ne r then some r.bb.length else none

/-- A decoded record (R213). -/
structure Record where
  x1 : Nat
  y1 : Nat
  tag : List Byte
  body : List Byte
  deriving DecidableEq, Repr

/-- `DecodeRecord(buf, D, ne)` of R213, with FLEN = F; none is InvalidEncoding. -/
def decodeRecord (F : Nat) (buf : List Byte) (D : Nat) (ne : Bool) : Option Record :=
  match parseStructure buf with
  | none => none
  | some r =>
    if !recordFits D ne r then none
    else
      match decodeInt F r.xb, decodeInt F r.yb with
      | some x1, some y1 => some ⟨x1, y1, r.tb, r.bb⟩
      | _, _ => none

/-- MSGLEN within MSG (R207, R209). -/
def needMsgLen (s : State) : Bool × CmdFault := (decide (s.regs.msglen.toNat > s.cfg.msgCap), .invalidLength)
/-- RECLEN within REC (R214, R215). -/
def needRecLen (s : State) : Bool × CmdFault := (decide (s.regs.reclen.toNat > s.cfg.recCap), .invalidLength)

/-- REC[0..RECLEN). -/
def State.recordBytes (s : State) : List Byte := s.readBuf .record s.regs.reclen.toNat

/-- CTSIZE (R207). -/
def execCtsize (s : State) : Host.Outcome State Fault Refusal :=
  .next (s.guarded [needHash s, needMsgLen s]
    ({ s with regs := { s.regs with
        result := BitVec.ofNat 32 (wcs s.cfg.flen s.dlen s.regs.msglen.toNat) } } : State).complete)

/-- PTSIZE (R215). -/
def execPtsize (s : State) : Host.Outcome State Fault Refusal :=
  .next (s.guarded [needHash s, needRecLen s]
    (match plainLen s.recordBytes s.dlen s.ctrl.noempty with
      | none => s.raise .invalidEncoding
      | some n => ({ s with regs := { s.regs with result := BitVec.ofNat 32 n } } : State).complete))

/-- The record RENC and ENCRYPT leave: REC[0..len(r)) <- r; RECLEN <- len(r). -/
def State.putRecord (s : State) (r : List Byte) : State :=
  { s.writeBuf .record r with regs := { s.regs with reclen := BitVec.ofNat 32 r.length } }

/-- RENC fa, fb (R209). -/
def execRenc (ra rb : FReg) (s : State) : Host.Outcome State Fault Refusal :=
  .next (s.guarded [needHash s, needMsgLen s]
    (s.putRecord (encodeRecord s.cfg.flen (s.getF ra) (s.getF rb) (s.readBuf .tag s.dlen)
      (s.readBuf .msg s.regs.msglen.toNat))).complete)

/-- RDEC fd, fa (R214): all or nothing. A term with rd = ra is no command (R103(4)): it ends as the illegal word it would
be (R105; log 11). -/
def execRdec (rd ra : FReg) (s : State) : Host.Outcome State Fault Refusal :=
  .next (s.guarded [(rd == ra, .illegalCommand), needHash s, needRecLen s]
    (match decodeRecord s.cfg.flen s.recordBytes s.dlen s.ctrl.noempty with
      | none => s.raise .invalidEncoding
      | some r =>
        if r.body.length > s.cfg.msgCap then s.raise .invalidLength
        else
          let s1 := ((((s.setF rd r.x1).setF ra r.y1).writeBuf .tag r.tag).writeBuf .msg r.body)
          ({ s1 with regs := { s1.regs with msglen := BitVec.ofNat 32 r.body.length } } : State).complete))

end Sys2Proof.Machine
end

