-- ==== Sys2Proof/Machine/Ports.lean ====
section
/-! DEFINITION. The two ports (20_memory.md R82, R83). The functions of this model take them as an argument, so that a
statement can hold for every hash function and every random source; the commands run with `Ports.free`, whose answers
nothing constrains. Ports always answer (70_reset_and_hazards.md R300, log 6). -/

namespace Sys2Proof.Machine

/-- The answers of the hash engines and of the production random source. Not part of State. -/
structure Ports where
  /-- `hash h d s`: what engine `h`, of digest length `d`, answers to the byte string `s` (R82) -/
  hash : Nat → Nat → List Byte → List Byte
  /-- `rng c n`: the answer to the source's request number `c`, for `n` bytes: the bytes, or none (R83) -/
  rng : Nat → Nat → Option (List Byte)

/-- What the ports' contracts promise and nothing more: a digest has exactly DLEN bytes, a filled request exactly the
bytes asked for. -/
def Ports.Lawful (P : Ports) : Prop :=
  (∀ h d s, (P.hash h d s).length = d) ∧ (∀ c n s, P.rng c n = some s → s.length = n)

/-- The ports with free answers (log 4, log 5). -/
def Ports.free : Ports where
  hash h d s := (List.range d).map (Config.hashByte h d s)
  rng c n := if Config.rngRefuses c then none else some ((List.range n).map (Config.rngByte c))

end Sys2Proof.Machine
end

