-- ==== Sys2Proof/Machine/Kdf.lean ====
section
/-! DEFINITION. The KDF streaming engine (43_kdf.md): the function of R190 and command KDF (R191). The state machine of
R192 is in Sequencer.lean. -/

namespace Sys2Proof.Machine

/-- The loop of R190 from counter `ct` and output `out`. `fuel` bounds the requests; L is enough, since a digest has at
least one byte (R6). -/
def kdfLoop (hash : List Byte → List Byte) (seed : List Byte) (L : Nat) : Nat → Nat → List Byte → List Byte
  | 0, _, out => out.take L
  | fuel + 1, ct, out =>
    if out.length < L then kdfLoop hash seed L fuel ((ct + 1) % 2 ^ 32) (out ++ hash (seed ++ be32 ct))
    else out.take L

/-- `Kdf(h, seed, L)` of R190, for the hash engine `hash`. -/
def kdf (hash : List Byte → List Byte) (seed : List Byte) (L : Nat) : List Byte := kdfLoop hash seed L L 1 []

namespace State

/-- `HASH_h` for the hash CTRL.HSEL selects (R82). -/
def hashWith (P : Ports) (s : State) : List Byte → List Byte := P.hash s.hsel s.dlen

/-- R193: no output is longer than 2^32 · DLEN. -/
def needKdfLen (s : State) (L : Nat) : Bool × CmdFault := (decide (L > 2 ^ 32 * s.dlen), .invalidLength)

end State

/-- The checks of R191, in order. -/
def kdfChecks (s : State) : List (Bool × CmdFault) :=
  [needHash s, (decide (s.regs.seedlen.toNat > 128), .invalidLength),
   (decide (s.regs.kslen.toNat > s.cfg.msgCap), .invalidLength), s.needKdfLen s.regs.kslen.toNat]

/-- Command KDF with these ports (R191). -/
def kdfWith (P : Ports) (s : State) : State :=
  s.guarded (kdfChecks s)
    (s.writeBuf .ks (kdf (s.hashWith P) (s.readBuf .seed s.regs.seedlen.toNat) s.regs.kslen.toNat)).complete

/-- KDF (R191). -/
def execKdf (s : State) : Host.Outcome State Fault Refusal := .next (kdfWith .free s)

end Sys2Proof.Machine
end

