-- ==== Sys2Proof/Machine/Engine.lean ====
section
/-! DEFINITION. The encryption and decryption engine (45_engine.md): Draw R231, DRAW R232, ENCRYPT R235, DECRYPT R245,
each as its rule's pseudocode, for any ports; the commands run with the free ones. -/

namespace Sys2Proof.Machine

/-- The random cursors a draw reads and moves: RNGPOS, and which answer of the production source comes next. -/
structure Cursor where
  rngpos : BitVec 9
  freeCtr : Nat
  deriving DecidableEq, Repr

namespace State

/-- The cursors as the state holds them. -/
def cursor (s : State) : Cursor := ⟨s.regs.rngpos, s.freeCtr⟩
/-- The state with its cursors moved. -/
def setCursor (s : State) (c : Cursor) : State :=
  { s with regs := { s.regs with rngpos := c.rngpos }, freeCtr := c.freeCtr }

/-- `Draw()` of R231 from the cursors `c`: the integer, or none, and the cursors after it. -/
def drawFrom (P : Ports) (s : State) (c : Cursor) : Option Nat × Cursor :=
  let F := s.cfg.flen
  if s.testrng then
    if c.rngpos.toNat + F ≤ s.regs.rnglen.toNat then
      (some (os2ip (s.mem.readBytes (Buffer.rngbuf.base + c.rngpos.toNat) F)),
        { c with rngpos := BitVec.ofNat 9 (c.rngpos.toNat + F) })
    else (none, c)
  else ((P.rng c.freeCtr F).map os2ip, { c with freeCtr := c.freeCtr + 1 })

end State

/-- DRAW with these ports (R232). -/
def drawWith (P : Ports) (rd : FReg) (s : State) : State :=
  match s.drawFrom P s.cursor with
  | (none, c) => (s.setCursor c).raise .randomnessExhausted
  | (some k, c) => ((s.setCursor c).setF rd k).complete

/-- DRAW fd (R232). -/
def execDraw (rd : FReg) (s : State) : Host.Outcome State Fault Refusal := .next (drawWith .free rd s)

/-- ENCRYPT's message, MSG[0..MSGLEN). -/
def State.plaintext (s : State) : List Byte := s.readBuf .msg s.regs.msglen.toNat

/-- The checks of R235, in order. -/
def encryptChecks (s : State) : List (Bool × CmdFault) :=
  [needParams s, needHash s, needMsgLen s,
   (s.ctrl.noempty && s.regs.msglen.toNat == 0, .invalidLength),
   s.needKdfLen s.regs.msglen.toNat,
   (decide (s.regs.outcap.toNat < wcs s.cfg.flen s.dlen s.regs.msglen.toNat), .bufferTooSmall),
   (!s.isOnCurve s.keys.qx s.keys.qy, .invalidCurvePoint)]

/-- What the retry loop hands to step 6: the affine C1 and S, and the keystream. -/
structure Shared where
  x1 : Nat
  y1 : Nat
  x2 : Nat
  y2 : Nat
  t : List Byte
  deriving DecidableEq, Repr

/-- How the retry loop of R235 ends, with the number of draws made and the cursors as the draws moved them. -/
structure LoopEnd where
  result : Except CmdFault Shared
  att : Nat
  cur : Cursor

/-- What one accepted scalar gives (R235 steps 2 to 5). -/
inductive Attempt where
  /-- C1 is at infinity: fault PointAtInfinity -/
  | c1Infinite
  /-- S is at infinity, or the keystream of a non-empty message is all zero: redraw -/
  | redraw
  | found (r : Shared)
  deriving DecidableEq, Repr

/-- R235's test of step 5: L > 0 and every byte of t is 0. -/
def allZero (t : List Byte) (L : Nat) : Bool := decide (L > 0) && t.all (· == 0)

/-- R235 steps 2 to 5 for the scalar `k` and a message of `L` bytes. -/
def attempt (P : Ports) (s : State) (L k : Nat) : Attempt :=
  let c1 := s.scalarMul k s.basePoint
  if c1.z = 0 then .c1Infinite
  else
    let sh := s.scalarMul k s.publicPoint
    if sh.z = 0 then .redraw
    else
      let t := kdf (s.hashWith P) (s.fe (s.affine sh).1 ++ s.fe (s.affine sh).2) L
      if allZero t L then .redraw
      else .found ⟨(s.affine c1).1, (s.affine c1).2, (s.affine sh).1, (s.affine sh).2, t⟩

/-- The retry loop of R235 with `fuel` draws left (MAXATT − att), `att` draws made, from the cursors `c`. -/
def encryptLoop (P : Ports) (s : State) (L : Nat) : Nat → Nat → Cursor → LoopEnd
  | 0, att, c => ⟨.error .randomnessExhausted, att, c⟩
  | fuel + 1, att, c =>
    match s.drawFrom P c with
    | (none, c') => ⟨.error .randomnessExhausted, att + 1, c'⟩
    | (some k, c') =>
      if !validScalar s.params.n k then encryptLoop P s L fuel (att + 1) c'
      else
        match attempt P s L k with
        | .c1Infinite => ⟨.error .pointAtInfinity, att + 1, c'⟩
        | .redraw => encryptLoop P s L fuel (att + 1) c'
        | .found r => ⟨.ok r, att + 1, c'⟩

/-- The record of R235 steps 6 to 8 for the message `M`. -/
def encryptRecord (P : Ports) (s : State) (M : List Byte) (r : Shared) : List Byte :=
  encodeRecord s.cfg.flen r.x1 r.y1 (s.hashWith P (s.fe r.x2 ++ M ++ s.fe r.y2)) (xorBytes M r.t)

/-- R235's `ATT <- att`. -/
def State.setAtt (s : State) (att : Nat) : State := { s with regs := { s.regs with att := BitVec.ofNat 8 att } }

/-- R235's `fail(F)`: every fault of ENCRYPT clears REC and RECLEN and writes ATT. -/
def encryptFail (s : State) (att : Nat) (F : CmdFault) : State :=
  let s1 := (s.clearBuf .record).setAtt att
  ({ s1 with regs := { s1.regs with reclen := 0 } } : State).raise F

/-- ENCRYPT with these ports (R235). -/
def encryptWith (P : Ports) (s : State) : State :=
  match firstFault (encryptChecks s) with
  | some F => encryptFail s 0 F
  | none =>
    let e := encryptLoop P s s.regs.msglen.toNat s.regs.maxatt.toNat 0 s.cursor
    let s1 := s.setCursor e.cur
    match e.result with
    | .error F => encryptFail s1 e.att F
    | .ok r => ((s1.putRecord (encryptRecord P s s.plaintext r)).setAtt e.att).complete

/-- ENCRYPT (R235). -/
def execEncrypt (s : State) : Host.Outcome State Fault Refusal := .next (encryptWith .free s)

/-- R245's `fail(F)`: every fault of DECRYPT clears all of MSG and MSGLEN. -/
def decryptFail (s : State) (F : CmdFault) : State :=
  let s1 := s.clearBuf .msg
  ({ s1 with regs := { s1.regs with msglen := 0 } } : State).raise F

/-- The checks of R245 made before the record is looked at, in order. -/
def decryptChecks (s : State) : List (Bool × CmdFault) :=
  [needParams s, needHash s, (!validScalar s.params.n s.keys.d, .invalidScalar), needRecLen s]

/-- The checks of R245 on the body length `L` the framing gives, in order. -/
def decryptLenChecks (s : State) (L : Nat) : List (Bool × CmdFault) :=
  [(decide (s.regs.outcap.toNat < L), .bufferTooSmall), (decide (L > s.cfg.msgCap), .invalidLength), s.needKdfLen L]

/-- R245's checks up to and including the ones on L (phase D_CHECK of R251): the fault, or L. -/
def decryptCheck (s : State) : Except CmdFault Nat :=
  match firstFault (decryptChecks s) with
  | some F => .error F
  | none =>
    match plainLen s.recordBytes s.dlen s.ctrl.noempty with
    | none => .error .invalidEncoding
    | some L =>
      match firstFault (decryptLenChecks s L) with
      | some F => .error F
      | none => .ok L

/-- R245 steps 2 to 7 for a decoded record: the message, or the one fault all three causes share (R246). -/
def decryptBody (P : Ports) (s : State) (L : Nat) (r : Record) : Except CmdFault (List Byte) :=
  if !s.isOnCurve r.x1 r.y1 then .error .authenticationFailed
  else
    let sh := s.scalarMul s.keys.d ⟨r.x1, r.y1, 1⟩
    if sh.z = 0 then .error .authenticationFailed
    else
      let x2 := s.fe (s.affine sh).1
      let y2 := s.fe (s.affine sh).2
      let m := xorBytes r.body (kdf (s.hashWith P) (x2 ++ y2) L)
      if s.hashWith P (x2 ++ m ++ y2) ≠ r.tag then .error .authenticationFailed else .ok m

/-- R245 from the checks to step 7: the message, or the fault. -/
def decryptResult (P : Ports) (s : State) : Except CmdFault (List Byte) :=
  match decryptCheck s with
  | .error F => .error F
  | .ok L =>
    match decodeRecord s.cfg.flen s.recordBytes s.dlen s.ctrl.noempty with
    | none => .error .invalidEncoding
    | some r => decryptBody P s L r

/-- R245 step 8: MSG[0..L) <- M'; MSGLEN <- L. -/
def State.putMessage (s : State) (m : List Byte) : State :=
  { s.writeBuf .msg m with regs := { s.regs with msglen := BitVec.ofNat 32 m.length } }

/-- DECRYPT with these ports (R245). -/
def decryptWith (P : Ports) (s : State) : State :=
  match decryptResult P s with
  | .error F => decryptFail s F
  | .ok m => (s.putMessage m).complete

/-- DECRYPT (R245). -/
def execDecrypt (s : State) : Host.Outcome State Fault Refusal := .next (decryptWith .free s)

end Sys2Proof.Machine
end

