-- ==== Sys2Proof/Machine/Sequencer.lean ====
section
/-! DEFINITION. The sequencer (45_engine.md R250 to R253, 43_kdf.md R192): the phases of ENCRYPT, DECRYPT and KDF, one
at a time, over the hidden scratch of 10_state.md R46. It decides what PHASE shows while a command runs. It touches
nothing but `phase` and `scratch`: a command's writes appear together, at completion (R9, R260), which is the command's
meaning (Engine.lean, Kdf.lean); `seqFinish` says what the walked path comes to, and a statement says that both agree
(log 7). -/

namespace Sys2Proof.Machine

/-- The first phase of an accepted word (R252, R253(a)): every command but ENCRYPT, DECRYPT and KDF runs in EXEC, a word
that fails decoding too. -/
def firstPhase (w : Word) : Phase :=
  match decode w with
  | .ok .encrypt => .eCheck
  | .ok .decrypt => .dCheck
  | .ok .kdf => .kInit
  | _ => .exec

namespace State

/-- Acceptance of the word written to CMD (10_state.md R31). -/
def acceptWord (s : State) (w : Word) : State := s.accept w (firstPhase w)

/-- Go to phase `ph`. -/
def toPhase (s : State) (ph : Phase) : State := { s with phase := ph }
/-- Go to phase `ph` with the scratch `c`. -/
def toPhaseWith (s : State) (ph : Phase) (c : Scratch) : State := { s with phase := ph, scratch := c }
/-- A fault found in a phase: it is kept for the wipe phase `ph`, which sets the status. -/
def toWipe (s : State) (ph : Phase) (F : CmdFault) : State :=
  { s with phase := ph, scratch := { s.scratch with fault := some F } }

end State

/-- Whether the running command is the standalone KDF (R252). -/
def runsKdf (s : State) : Bool := match decode s.fetch with | .ok .kdf => true | _ => false
/-- Whether the running command is ENCRYPT. -/
def runsEncrypt (s : State) : Bool := match decode s.fetch with | .ok .encrypt => true | _ => false

/-- The length L of the keystream the running command asks the KDF for: KSLEN, MSGLEN, or the decoded body's length. -/
def seqLen (s : State) : Nat :=
  if runsKdf s then s.regs.kslen.toNat else if runsEncrypt s then s.regs.msglen.toNat else s.scratch.body.length

/-- The seed the running command gives the KDF (R191, R235, R245). -/
def seqSeed (s : State) : List Byte :=
  if runsKdf s then s.readBuf .seed s.regs.seedlen.toNat else s.fe s.scratch.x2 ++ s.fe s.scratch.y2

/-- K_DONE of R192: clear CT, KPOS and the digest latch and go to the caller's next phase. E_KDF's all-zero test is made
here. The standalone KDF has no phase left: it stays in the phase `last` until it completes. -/
def kdfDone (s : State) (last : Phase) : State :=
  let c := { s.scratch with ct := 0, kpos := 0, digest := [] }
  if runsKdf s then s.toPhase last
  else if runsEncrypt s then
    if allZero c.t (seqLen s) then s.toPhaseWith .eDraw c else s.toPhaseWith .eXor c
  else s.toPhaseWith .dXor c

/-- The KDF machine (R192), one phase. -/
def kdfAdvance (P : Ports) (s : State) : State :=
  let c := s.scratch
  match s.phase with
  | .kInit =>
    if runsKdf s && (firstFault (kdfChecks s)).isSome then s
    else if seqLen s = 0 then kdfDone { s with scratch := { c with ct := 1, kpos := 0, t := [] } } .kInit
    else s.toPhaseWith .kSeed { c with ct := 1, kpos := 0, t := [] }
  | .kSeed => s.toPhaseWith .kCtr { c with stream := seqSeed s }
  | .kCtr => s.toPhaseWith .kFin { c with stream := c.stream ++ be32 c.ct.toNat }
  | .kFin => s.toPhaseWith .kOut { c with digest := s.hashWith P c.stream, stream := [] }
  | .kOut =>
    if seqLen s ≤ c.kpos then s
    else
      let n := min s.dlen (seqLen s - c.kpos)
      let c1 := { c with t := c.t ++ c.digest.take n, kpos := c.kpos + n, ct := c.ct + 1 }
      if c1.kpos < seqLen s then s.toPhaseWith .kSeed c1 else kdfDone { s with scratch := c1 } .kOut
  | _ => s

/-- The phases of ENCRYPT (R250), one phase. -/
def encryptAdvance (P : Ports) (s : State) : State :=
  let c := s.scratch
  match s.phase with
  | .eCheck =>
    let c0 := { c with att := 0, rngpos := s.regs.rngpos, freeCtr := s.freeCtr }
    match firstFault (encryptChecks s) with
    | some F => s.toPhaseWith .eWipe { c0 with fault := some F }
    | none => s.toPhaseWith .eDraw { c0 with msg := s.plaintext }
  | .eDraw =>
    if c.att ≥ s.regs.maxatt.toNat then s.toWipe .eWipe .randomnessExhausted
    else
      match s.drawFrom P ⟨c.rngpos, c.freeCtr⟩ with
      | (none, cur) =>
        { s with phase := .eWipe
                 scratch := { c with att := c.att + 1, rngpos := cur.rngpos, freeCtr := cur.freeCtr
                                     fault := some .randomnessExhausted } }
      | (some k, cur) =>
        let c1 := { c with att := c.att + 1, rngpos := cur.rngpos, freeCtr := cur.freeCtr, k := k }
        if !validScalar s.params.n k then s.toPhaseWith .eDraw c1 else s.toPhaseWith .eC1 c1
  | .eC1 =>
    let c1 := s.scalarMul c.k s.basePoint
    if c1.z = 0 then s.toWipe .eWipe .pointAtInfinity
    else s.toPhaseWith .eS { c with c1 := c1, x1 := (s.affine c1).1, y1 := (s.affine c1).2 }
  | .eS =>
    let sh := s.scalarMul c.k s.publicPoint
    if sh.z = 0 then s.toPhaseWith .eDraw { c with sh := sh }
    else s.toPhaseWith .eKdf { c with sh := sh, x2 := (s.affine sh).1, y2 := (s.affine sh).2 }
  | .eKdf => s.toPhase .kInit
  | .eXor => s.toPhaseWith .eTag { c with body := xorBytes c.msg c.t }
  | .eTag => s.toPhaseWith .eEnc { c with u := s.hashWith P (s.fe c.x2 ++ c.msg ++ s.fe c.y2) }
  | .eEnc => s.toPhaseWith .eWipe { c with record := encodeRecord s.cfg.flen c.x1 c.y1 c.u c.body }
  | .eWipe => s
  | _ => kdfAdvance P s

/-- The phases of DECRYPT (R251), one phase. -/
def decryptAdvance (P : Ports) (s : State) : State :=
  let c := s.scratch
  match s.phase with
  | .dCheck =>
    match decryptCheck s with
    | .error F => s.toWipe .dWipe F
    | .ok _ => s.toPhase .dDec
  | .dDec =>
    match decodeRecord s.cfg.flen s.recordBytes s.dlen s.ctrl.noempty with
    | none => s.toWipe .dWipe .invalidEncoding
    | some r => s.toPhaseWith .dOnc { c with x1 := r.x1, y1 := r.y1, tag := r.tag, body := r.body }
  | .dOnc => if !s.isOnCurve c.x1 c.y1 then s.toWipe .dWipe .authenticationFailed else s.toPhase .dS
  | .dS =>
    let sh := s.scalarMul s.keys.d ⟨c.x1, c.y1, 1⟩
    if sh.z = 0 then s.toWipe .dWipe .authenticationFailed
    else s.toPhaseWith .dKdf { c with sh := sh, x2 := (s.affine sh).1, y2 := (s.affine sh).2 }
  | .dKdf => s.toPhase .kInit
  | .dXor => s.toPhaseWith .dTag { c with msg := xorBytes c.body c.t }
  | .dTag => s.toPhaseWith .dCmp { c with u := s.hashWith P (s.fe c.x2 ++ c.msg ++ s.fe c.y2) }
  | .dCmp => if c.u ≠ c.tag then s.toWipe .dWipe .authenticationFailed else s.toPhase .dWipe
  | .dWipe => s
  | _ => kdfAdvance P s

/-- One edge of the sequencer's graph (R253(b)) for the running command; a command in its last phase stays there until
it completes, and an idle block stays idle. -/
def seqAdvance (P : Ports) (s : State) : State :=
  if !s.status.busy then s
  else
    match decode s.fetch with
    | .ok .encrypt => encryptAdvance P s
    | .ok .decrypt => decryptAdvance P s
    | .ok .kdf => kdfAdvance P s
    | _ => s

/-- `n` edges of the sequencer's graph. -/
def seqRun (P : Ports) : Nat → State → State
  | 0, s => s
  | n + 1, s => seqRun P n (seqAdvance P s)

/-- Whether the running command has reached the phase it completes from (E_WIPE, D_WIPE; for KDF the end of R192's
machine). -/
def seqAtEnd (s : State) : Bool :=
  match s.phase with
  | .eWipe | .dWipe | .exec => true
  | .kInit => runsKdf s && ((firstFault (kdfChecks s)).isSome || seqLen s == 0)
  | .kOut => runsKdf s && decide (seqLen s ≤ s.scratch.kpos)
  | _ => false

/-- What the last phase makes of the scratch (R250 E_WIPE, R251 D_WIPE; R191): the completion or the fault. -/
def seqFinish (s : State) : State :=
  let c := s.scratch
  match s.phase with
  | .eWipe =>
    let s1 := s.setCursor ⟨c.rngpos, c.freeCtr⟩
    match c.fault with
    | some F => encryptFail s1 c.att F
    | none => ((s1.putRecord c.record).setAtt c.att).complete
  | .dWipe =>
    match c.fault with
    | some F => decryptFail s F
    | none => (s.putMessage c.msg).complete
  | _ => s.guarded (kdfChecks s) (s.writeBuf .ks c.t).complete

end Sys2Proof.Machine
end

