-- ==== Sys2Proof/Machine/Bus.lean ====
section
/-! DEFINITION. The host's accesses (20_memory.md R70 to R79; 10_state.md R26, R29 to R44): the address map, what a read
returns, what a write does, and reset (70_reset_and_hazards.md R290, R291). -/

namespace Sys2Proof.Machine

/-- The registers that occupy a 64-byte slot (R26, R71). -/
inductive WideReg where
  | p | a | b | gx | gy | n | qx | qy | d | rr | mu
  | f (r : FReg)
  | ptX (j : PReg)
  | ptY (j : PReg)
  | ptZ (j : PReg)
  deriving DecidableEq, Repr

/-- The register of slot number `slot` (address divided by 64): the eleven slots from 0x100, f[0..15] from 0x400, and
pt[0..3] from 0x800, whose fourth slot each is reserved (R71). -/
def slotReg (slot : Nat) : Option WideReg :=
  if slot < 16 then
    match slot with
    | 4 => some .p | 5 => some .a | 6 => some .b | 7 => some .gx | 8 => some .gy | 9 => some .n
    | 10 => some .qx | 11 => some .qy | 12 => some .d | 13 => some .rr | 14 => some .mu
    | _ => none
  else if h : slot < 32 then some (.f ⟨slot - 16, by omega⟩)
  else if h : slot < 48 then
    let j : PReg := ⟨(slot - 32) / 4, by omega⟩
    match (slot - 32) % 4 with
    | 0 => some (.ptX j) | 1 => some (.ptY j) | 2 => some (.ptZ j)
    | _ => none
  else none

namespace WideReg

/-- A wide register's value. -/
def get (s : State) : WideReg → Nat
  | .p => s.params.p | .a => s.params.a | .b => s.params.b | .gx => s.params.gx | .gy => s.params.gy
  | .n => s.params.n | .qx => s.keys.qx | .qy => s.keys.qy | .d => s.keys.d
  | .rr => s.consts.rr | .mu => s.consts.mu
  | .f r => s.getF r
  | .ptX j => (s.getPt j).x | .ptY j => (s.getPt j).y | .ptZ j => (s.getPt j).z

/-- A host write of a wide register; RR and MU are read-only (R23, R44). -/
def set (s : State) (v : Nat) : WideReg → State
  | .p => { s with params := { s.params with p := v } }
  | .a => { s with params := { s.params with a := v } }
  | .b => { s with params := { s.params with b := v } }
  | .gx => { s with params := { s.params with gx := v } }
  | .gy => { s with params := { s.params with gy := v } }
  | .n => { s with params := { s.params with n := v } }
  | .qx => { s with keys := { s.keys with qx := v } }
  | .qy => { s with keys := { s.keys with qy := v } }
  | .d => { s with keys := { s.keys with d := v } }
  | .rr => s
  | .mu => s
  | .f r => s.setF r v
  | .ptX j => s.setPt j { s.getPt j with x := v }
  | .ptY j => s.setPt j { s.getPt j with y := v }
  | .ptZ j => s.setPt j { s.getPt j with z := v }

/-- A host read of D returns 0 (R22). -/
def readable : WideReg → Bool
  | .d => false
  | _ => true

/-- A host write to any word of these clears PVALID (R23, R77). -/
def feedsConsts : WideReg → Bool
  | .p | .a | .b | .gx | .gy => true
  | _ => false

end WideReg

/-- Whether byte address `a` lies in a buffer, within its capacity; RNGBUF is not there when TEST_EN = 0 (R71). -/
def inBuffer (c : Config) (a : Nat) : Bool :=
  [Buffer.msg, .ks, .record, .tag, .seed].any (fun b => b.base ≤ a && a < b.base + b.cap c) ||
    (c.testEn && Buffer.rngbuf.base ≤ a && a < Buffer.rngbuf.base + Buffer.rngbuf.cap c)

namespace State

/-- The byte a host read of byte address `a` sees, outside the control registers (R26, R71, R72). -/
def busByte (s : State) (a : Nat) : Byte :=
  match slotReg (a / 64) with
  | some r => if r.readable && a % 64 < s.cfg.flen then byteAt (r.get s) s.cfg.flen (a % 64) else 0
  | none => if inBuffer s.cfg a then s.mem.read a else 0

/-- A host write of one byte lane, outside the control registers: bytes beyond FLEN of a slot, reserved addresses and
lanes beyond a buffer's capacity ignore it (R26, R71). -/
def busSetByte (s : State) (a : Nat) (b : Byte) : State :=
  match slotReg (a / 64) with
  | some r => if a % 64 < s.cfg.flen then r.set s (setByteAt (r.get s) s.cfg.flen (a % 64) b) else s
  | none => if inBuffer s.cfg a then { s with mem := s.mem.write a b } else s

/-- Whether a write of the word at `a` clears PVALID (R23): it is a word of P, A, B, GX or GY, that is, one that holds
bytes of the register (log 8). -/
def clearsPvalid (s : State) (a : Nat) : Bool :=
  match slotReg (a / 64) with
  | some r => r.feedsConsts && a % 64 < s.cfg.flen
  | none => false

end State

/-- The control and status registers (10_state.md R29 to R43). -/
inductive CtlReg where
  | id | config | cmd | status | errcode | ctrl | maxatt | att | msglen | reclen | outcap | result
  | seedlen | kslen | rnglen | rngpos | phase | cof | pinv0
  deriving DecidableEq, Repr

/-- The control register at an address (R29 to R43); the others below 0x100 are reserved. -/
def CtlReg.at (a : Nat) : Option CtlReg :=
  match a with
  | 0x000 => some .id | 0x004 => some .config | 0x008 => some .cmd | 0x00C => some .status
  | 0x010 => some .errcode | 0x014 => some .ctrl | 0x018 => some .maxatt | 0x01C => some .att
  | 0x020 => some .msglen | 0x024 => some .reclen | 0x028 => some .outcap | 0x02C => some .result
  | 0x030 => some .seedlen | 0x034 => some .kslen | 0x038 => some .rnglen | 0x03C => some .rngpos
  | 0x040 => some .phase | 0x044 => some .cof | 0x048 => some .pinv0
  | _ => none

/-- A bit of a control register's word. -/
def bitAt (b : Bool) (i : Nat) : Nat := if b then 2 ^ i else 0

/-- CONFIG (R30). -/
def configWord (c : Config) : Word :=
  BitVec.ofNat 32 (c.fieldBits + c.limbBits * 2 ^ 10 + c.nhash * 2 ^ 16 + bitAt c.testEn 19)

/-- STATUS (R32, R28). -/
def statusWord (s : State) : Word :=
  BitVec.ofNat 32 (bitAt s.status.busy 0 + bitAt s.status.done 1 + bitAt s.status.err 2 + bitAt s.status.drop 3 +
    bitAt s.status.pvalid 4 + bitAt s.flags.z 8 + bitAt s.flags.c 9 + bitAt s.flags.i 10 + bitAt s.flags.v 11)

/-- CTRL (R34). -/
def ctrlWord (s : State) : Word :=
  BitVec.ofNat 32 (bitAt s.ctrl.ieDone 0 + bitAt s.ctrl.ieErr 1 + s.ctrl.hsel.toNat * 2 ^ 4 +
    bitAt s.ctrl.noempty 8 + bitAt s.testrng 12)

/-- What a host write to RNGLEN or RNGPOS stores (R42). -/
def saturate256 (v : Word) : BitVec 9 := BitVec.ofNat 9 (min v.toNat 256)

namespace CtlReg

/-- What an idle read of a control register returns. -/
def read (s : State) : CtlReg → Word
  | .id => 0x534D3243
  | .config => configWord s.cfg
  | .cmd => 0
  | .status => statusWord s
  | .errcode => s.regs.errcode.setWidth 32
  | .ctrl => ctrlWord s
  | .maxatt => s.regs.maxatt.setWidth 32
  | .att => s.regs.att.setWidth 32
  | .msglen => s.regs.msglen
  | .reclen => s.regs.reclen
  | .outcap => s.regs.outcap
  | .result => s.regs.result
  | .seedlen => s.regs.seedlen.setWidth 32
  | .kslen => s.regs.kslen
  | .rnglen => if s.cfg.testEn then s.regs.rnglen.setWidth 32 else 0
  | .rngpos => if s.cfg.testEn then s.regs.rngpos.setWidth 32 else 0
  | .phase => s.phase.code.setWidth 32
  | .cof => s.params.cof
  | .pinv0 => s.consts.pinv0

/-- What an idle write of `v` to a control register does. CMD is R31; STATUS is R32; the registers that are read-only
ignore it (R44). -/
def write (s : State) (v : Word) : CtlReg → State
  | .cmd => if s.status.err then s.setDrop else s.acceptWord v
  | .status => s.acknowledge v
  | .ctrl =>
    { s with ctrl :=
        { ieDone := v.getLsbD 0, ieErr := v.getLsbD 1, hsel := v.extractLsb' 4 2, noempty := v.getLsbD 8
          testrng := if s.cfg.testEn then v.getLsbD 12 else s.ctrl.testrng } }
  | .maxatt => { s with regs := { s.regs with maxatt := v.extractLsb' 0 8 } }
  | .msglen => { s with regs := { s.regs with msglen := v } }
  | .reclen => { s with regs := { s.regs with reclen := v } }
  | .outcap => { s with regs := { s.regs with outcap := v } }
  | .seedlen => { s with regs := { s.regs with seedlen := v.extractLsb' 0 8 } }
  | .kslen => { s with regs := { s.regs with kslen := v } }
  | .rnglen => if s.cfg.testEn then { s with regs := { s.regs with rnglen := saturate256 v } } else s
  | .rngpos => if s.cfg.testEn then { s with regs := { s.regs with rngpos := saturate256 v } } else s
  | .cof => { s with params := { s.params with cof := v } }
  | .id | .config | .errcode | .att | .result | .phase | .pinv0 => s

/-- The registers a read reaches while BUSY = 1 (R79). -/
def readableBusy : CtlReg → Bool
  | .id | .config | .status | .errcode | .phase => true
  | _ => false

end CtlReg

namespace State

/-- The word an idle read of the aligned address `a` returns (R76). -/
def readIdle (s : State) (a : Nat) : Word :=
  if a < 0x100 then
    match CtlReg.at a with
    | some r => r.read s
    | none => 0
  else wordOfBytes (s.busByte a) (s.busByte (a + 1)) (s.busByte (a + 2)) (s.busByte (a + 3))

/-- The word a read of the aligned address `a` returns while BUSY = 1 (R79). -/
def readBusy (s : State) (a : Nat) : Word :=
  match CtlReg.at a with
  | some r => if r.readableBusy then r.read s else 0
  | none => 0

/-- An idle write of `v` to the aligned address `a` (R77). -/
def writeIdle (s : State) (a : Nat) (v : Word) : State :=
  if a < 0x100 then
    match CtlReg.at a with
    | some r => r.write s v
    | none => s
  else
    let s1 := (((s.busSetByte a (laneOf v 0)).busSetByte (a + 1) (laneOf v 1)).busSetByte (a + 2)
      (laneOf v 2)).busSetByte (a + 3) (laneOf v 3)
    if s.clearsPvalid a then { s1 with status := { s1.status with pvalid := false } } else s1

/-- The number of the next request to the production random source, at any moment: the requests that a running ENCRYPT
has walked past in its E_DRAW phases are counted in the scratch and not yet in `freeCtr` (log 5). -/
def nextRequest (s : State) : Nat := max s.freeCtr s.scratch.freeCtr

/-- Reset (R290, R291), at any moment: the state of R48 for the same instance. What lies outside the block goes on, the
schedule and the production random source; that the source then answers a request with a number of its own, also after an
ENCRYPT abandoned past E_DRAW, is the model's choice, since R83 and R290 assume nothing of the source (log 5). -/
def hostReset (s : State) : State := { State.resetOf s.cfg with turns := s.turns, freeCtr := s.nextRequest }

/-- Whether a bus access is performed at all (R78, log 14). -/
def aligned (addr : Word) (bytes : Nat) : Bool := bytes == 4 && addr.toNat % 4 == 0

/-- One access of the host. -/
def hostAccess (s : State) : Access → State
  | .reset => s.hostReset
  | .read addr bytes =>
    if !aligned addr bytes then { s.setDrop with reply := 0 }
    else { s with reply := if s.status.busy then s.readBusy addr.toNat else s.readIdle addr.toNat }
  | .write addr bytes v =>
    if !aligned addr bytes then s.setDrop
    else if s.status.busy then (if addr.toNat = 0x00C then s.acknowledge v else s.setDrop)
    else s.writeIdle addr.toNat v

end State
end Sys2Proof.Machine
end

