-- ==== Sys2Proof/Machine/Flags.lean ====
section
/-! DEFINITION. The condition flags (10_state.md R28): what each of the four commands that write one makes of them. No
other command writes a flag. -/

namespace Sys2Proof.Machine.State

/-- CMP (41_modarith.md R145): Z and C from two W-bit unsigned integers; I and V stay. -/
def cmpFlags (s : State) (x y : Nat) : State := { s with flags := { s.flags with z := x == y, c := decide (x < y) } }
/-- PEQ (42_point.md R165): Z; C, I, V stay. -/
def peqFlags (s : State) (T1 T2 : Triple) : State := { s with flags := { s.flags with z := pointEq s.params.p T1 T2 } }
/-- PISINF (42_point.md R166): I; Z, C, V stay. -/
def infFlags (s : State) (T : Triple) : State := { s with flags := { s.flags with i := T.z == 0 } }
/-- ONC (42_point.md R173): V; Z, C, I stay. -/
def oncFlags (s : State) (x y : Nat) : State := { s with flags := { s.flags with v := s.isOnCurve x y } }

end Sys2Proof.Machine.State
end

