-- ==== Sys2Proof/Machine/Field.lean ====
section
/-! DEFINITION. The modular multiplier and reducer, the field-inverse unit and the field register commands
(41_modarith.md). Sources are read before the destination is written (R130); a fault leaves the destination (R131). -/

namespace Sys2Proof.Machine

/-- MODADD fd, fa, fb (R133). -/
def execModadd (rd ra rb : FReg) (s : State) : Host.Outcome State Fault Refusal :=
  .next (s.guarded [needParams s, needField s ra, needField s rb]
    (s.setF rd (modAdd s.params.p (s.getF ra) (s.getF rb))).complete)

/-- MODSUB fd, fa, fb (R134). -/
def execModsub (rd ra rb : FReg) (s : State) : Host.Outcome State Fault Refusal :=
  .next (s.guarded [needParams s, needField s ra, needField s rb]
    (s.setF rd (modSub s.params.p (s.getF ra) (s.getF rb))).complete)

/-- MODMUL fd, fa, fb (R137): two passes of the Montgomery multiplier. -/
def execModmul (rd ra rb : FReg) (s : State) : Host.Outcome State Fault Refusal :=
  .next (s.guarded [needParams s, needField s ra, needField s rb]
    (s.setF rd (s.mont (s.mont (s.getF ra) (s.getF rb)) s.consts.rr)).complete)

/-- MODSQR fd, fa (R138): MODMUL with both sources f[ra]. -/
def execModsqr (rd ra : FReg) (s : State) : Host.Outcome State Fault Refusal :=
  .next (s.guarded [needParams s, needField s ra]
    (s.setF rd (s.mont (s.mont (s.getF ra) (s.getF ra)) s.consts.rr)).complete)

/-- MONTMUL fd, fa, fb (R136). -/
def execMontmul (rd ra rb : FReg) (s : State) : Host.Outcome State Fault Refusal :=
  .next (s.guarded [needParams s, needField s ra, needField s rb]
    (s.setF rd (s.mont (s.getF ra) (s.getF rb))).complete)

/-- TOMONT fd, fa (R139). -/
def execTomont (rd ra : FReg) (s : State) : Host.Outcome State Fault Refusal :=
  .next (s.guarded [needParams s, needField s ra] (s.setF rd (s.mont (s.getF ra) s.consts.rr)).complete)

/-- FROMMONT fd, fa (R140). -/
def execFrommont (rd ra : FReg) (s : State) : Host.Outcome State Fault Refusal :=
  .next (s.guarded [needParams s, needField s ra] (s.setF rd (s.mont (s.getF ra) 1)).complete)

/-- MODRED fd, fa, fb (R142): f[ra] is the high half, f[rb] the low half; no operand check. -/
def execModred (rd ra rb : FReg) (s : State) : Host.Outcome State Fault Refusal :=
  .next (s.guarded [needParams s]
    (s.setF rd (barrettReduce s.cfg.fieldBits s.params.p s.consts.mu
      (s.getF ra * 2 ^ s.cfg.fieldBits + s.getF rb))).complete)

/-- MODINV fd, fa (R144). -/
def execModinv (rd ra : FReg) (s : State) : Host.Outcome State Fault Refusal :=
  .next (s.guarded [needParams s, needField s ra, (s.getF ra == 0, .notInvertible)]
    (s.setF rd (fermatInv s.cfg.fieldBits s.params.p (s.getF ra))).complete)

/-- CMP fa, fb (R145). -/
def execCmp (ra rb : FReg) (s : State) : Host.Outcome State Fault Refusal :=
  .next (s.cmpFlags (s.getF ra) (s.getF rb)).complete

/-- MOV fd, fa (R146). -/
def execMov (rd ra : FReg) (s : State) : Host.Outcome State Fault Refusal :=
  .next (s.setF rd (s.getF ra)).complete

/-- LDI fd, imm16 (R147). -/
def execLdi (rd : FReg) (imm : BitVec 16) (s : State) : Host.Outcome State Fault Refusal :=
  .next (s.setF rd (immValue s.cfg imm)).complete

end Sys2Proof.Machine
end

