-- ==== Sys2Proof/Machine/Point.lean ====
section
/-! DEFINITION. The point adder and doubler, the scalar-point multiplier and the point register commands
(42_point.md). Sources are read before the destination is written (R160). -/

namespace Sys2Proof.Machine

/-- PDBL pd, pa (R162). -/
def execPdbl (rd ra : PReg) (s : State) : Host.Outcome State Fault Refusal :=
  .next (s.guarded [needParams s, needPoint s ra]
    (s.setPt rd (jdbl s.params.p s.params.a (s.getPt ra))).complete)

/-- PADD pd, pa, pb (R163). -/
def execPadd (rd ra rb : PReg) (s : State) : Host.Outcome State Fault Refusal :=
  .next (s.guarded [needParams s, needPoint s ra, needPoint s rb]
    (s.setPt rd (jadd s.params.p s.params.a (s.getPt ra) (s.getPt rb))).complete)

/-- PAFF pd, pa (R164). -/
def execPaff (rd ra : PReg) (s : State) : Host.Outcome State Fault Refusal :=
  .next (s.guarded [needParams s, needPoint s ra, ((s.getPt ra).z == 0, .pointAtInfinity)]
    (s.setPt rd ⟨(s.affine (s.getPt ra)).1, (s.affine (s.getPt ra)).2, 1⟩).complete)

/-- PEQ pa, pb (R165). -/
def execPeq (ra rb : PReg) (s : State) : Host.Outcome State Fault Refusal :=
  .next (s.guarded [needParams s, needPoint s ra, needPoint s rb]
    (s.peqFlags (s.getPt ra) (s.getPt rb)).complete)

/-- PISINF pa (R166). -/
def execPisinf (ra : PReg) (s : State) : Host.Outcome State Fault Refusal :=
  .next (s.infFlags (s.getPt ra)).complete

/-- PSETINF pd (R167). -/
def execPsetinf (rd : PReg) (s : State) : Host.Outcome State Fault Refusal :=
  .next (s.setPt rd .inf).complete

/-- PLDG pd (R168). -/
def execPldg (rd : PReg) (s : State) : Host.Outcome State Fault Refusal :=
  .next (s.setPt rd s.basePoint).complete

/-- PLDQ pd (R169). -/
def execPldq (rd : PReg) (s : State) : Host.Outcome State Fault Refusal :=
  .next (s.setPt rd s.publicPoint).complete

/-- PMOV pd, pa (R170). -/
def execPmov (rd ra : PReg) (s : State) : Host.Outcome State Fault Refusal :=
  .next (s.setPt rd (s.getPt ra)).complete

/-- PSET pd, fa, fb (R171). -/
def execPset (rd : PReg) (ra rb : FReg) (s : State) : Host.Outcome State Fault Refusal :=
  .next (s.setPt rd ⟨s.getF ra, s.getF rb, 1⟩).complete

/-- PGET fd, pa, sel (R172). -/
def execPget (rd : FReg) (ra : PReg) (sel : Coord) (s : State) : Host.Outcome State Fault Refusal :=
  .next (s.setF rd ((s.getPt ra).coord sel)).complete

/-- ONC fa, fb (R173): no operand check; a value ≥ p gives V = 0. -/
def execOnc (ra rb : FReg) (s : State) : Host.Outcome State Fault Refusal :=
  .next (s.guarded [needParams s] (s.oncFlags (s.getF ra) (s.getF rb)).complete)

/-- PMUL pd, pa, fk (R176): the scalar is not checked. -/
def execPmul (rd ra : PReg) (rb : FReg) (s : State) : Host.Outcome State Fault Refusal :=
  .next (s.guarded [needParams s, needPoint s ra]
    (s.setPt rd (s.scalarMul (s.getF rb) (s.getPt ra))).complete)

/-- SCHK fa (R177). -/
def execSchk (ra : FReg) (s : State) : Host.Outcome State Fault Refusal :=
  .next (s.guarded [(!validScalar s.params.n (s.getF ra), .invalidScalar)] s.complete)

end Sys2Proof.Machine
end

