-- ==== Sys2Proof/Machine/System.lean ====
section
/-! DEFINITION. The system commands NOP, SETUP, ZEROIZE (40_setup.md R120, R121, R123). -/

namespace Sys2Proof.Machine

/-- NOP (R120). -/
def execNop (s : State) : Host.Outcome State Fault Refusal := .next s.complete

/-- What SETUP checks (R121): P odd and of full width; A, B, GX, GY below P. -/
def setupRejects (W : Nat) (r : Params) : Bool :=
  r.p % 2 == 0 || r.p < 2 ^ (W - 1) || r.a ≥ r.p || r.b ≥ r.p || r.gx ≥ r.p || r.gy ≥ r.p

/-- SETUP's constants for P (R121). -/
def setupConsts (c : Config) (p : Nat) : Consts :=
  { rr := setupRR c.fieldBits p, mu := setupMU c.fieldBits p, pinv0 := BitVec.ofNat 32 (setupPINV0 c.limbBits p) }

/-- SETUP (R121): one of the four commands that write before a fault (R262): PVALID <- 0. -/
def execSetup (s : State) : Host.Outcome State Fault Refusal :=
  .next (if setupRejects s.cfg.fieldBits s.params then
      ({ s with status := { s.status with pvalid := false } } : State).raise .badParam
    else
      ({ s with
          consts := setupConsts s.cfg s.params.p
          status := { s.status with pvalid := true } } : State).complete)

/-- ZEROIZE (R123). -/
def execZeroize (s : State) : Host.Outcome State Fault Refusal :=
  let s1 : State :=
    { s with
      keys := { s.keys with d := 0 }
      f := Vector.replicate 16 0
      pt := Vector.replicate 4 .inf
      regs := { s.regs with msglen := 0, kslen := 0, seedlen := 0, rnglen := 0, rngpos := 0 } }
  .next ((((((s1.clearBuf .msg).clearBuf .ks).clearBuf .seed).clearBuf .tag).clearBuf .rngbuf).complete)

end Sys2Proof.Machine
end

