-- ==== Sys2Proof/Machine/Dispatch.lean ====
section
/-! DEFINITION. Which meaning each command has: one arm per constructor of Instr, in the order of 30_encoding.md R104. -/

namespace Sys2Proof.Machine

def exec (i : Instr) (s : State) : Host.Outcome State Fault Refusal :=
  match i with
  | .nop => Sys2Proof.Machine.execNop s
  | .setup => Sys2Proof.Machine.execSetup s
  | .zeroize => Sys2Proof.Machine.execZeroize s
  | .modadd rd ra rb => Sys2Proof.Machine.execModadd rd ra rb s
  | .modsub rd ra rb => Sys2Proof.Machine.execModsub rd ra rb s
  | .modmul rd ra rb => Sys2Proof.Machine.execModmul rd ra rb s
  | .modsqr rd ra => Sys2Proof.Machine.execModsqr rd ra s
  | .montmul rd ra rb => Sys2Proof.Machine.execMontmul rd ra rb s
  | .tomont rd ra => Sys2Proof.Machine.execTomont rd ra s
  | .frommont rd ra => Sys2Proof.Machine.execFrommont rd ra s
  | .modred rd ra rb => Sys2Proof.Machine.execModred rd ra rb s
  | .modinv rd ra => Sys2Proof.Machine.execModinv rd ra s
  | .cmp ra rb => Sys2Proof.Machine.execCmp ra rb s
  | .mov rd ra => Sys2Proof.Machine.execMov rd ra s
  | .ldi rd imm => Sys2Proof.Machine.execLdi rd imm s
  | .pdbl rd ra => Sys2Proof.Machine.execPdbl rd ra s
  | .padd rd ra rb => Sys2Proof.Machine.execPadd rd ra rb s
  | .paff rd ra => Sys2Proof.Machine.execPaff rd ra s
  | .peq ra rb => Sys2Proof.Machine.execPeq ra rb s
  | .pisinf ra => Sys2Proof.Machine.execPisinf ra s
  | .psetinf rd => Sys2Proof.Machine.execPsetinf rd s
  | .pldg rd => Sys2Proof.Machine.execPldg rd s
  | .pldq rd => Sys2Proof.Machine.execPldq rd s
  | .pmov rd ra => Sys2Proof.Machine.execPmov rd ra s
  | .pset rd ra rb => Sys2Proof.Machine.execPset rd ra rb s
  | .pget rd ra sel => Sys2Proof.Machine.execPget rd ra sel s
  | .onc ra rb => Sys2Proof.Machine.execOnc ra rb s
  | .pmul rd ra rb => Sys2Proof.Machine.execPmul rd ra rb s
  | .schk ra => Sys2Proof.Machine.execSchk ra s
  | .kdf => Sys2Proof.Machine.execKdf s
  | .renc ra rb => Sys2Proof.Machine.execRenc ra rb s
  | .rdec rd ra => Sys2Proof.Machine.execRdec rd ra s
  | .ctsize => Sys2Proof.Machine.execCtsize s
  | .ptsize => Sys2Proof.Machine.execPtsize s
  | .encrypt => Sys2Proof.Machine.execEncrypt s
  | .decrypt => Sys2Proof.Machine.execDecrypt s
  | .draw rd => Sys2Proof.Machine.execDraw rd s

end Sys2Proof.Machine
end

