-- ==== Sys2Proof/Machine/Step.lean ====
section
/-! DEFINITION. One step (00_scope.md R8, R9; log 2). The schedule in the state says who moves: the host makes one
access; the core goes one phase further; or the core brings the running command to completion, which is the command's
meaning as one transition. With nothing scheduled the core completes what it runs, and an idle block does nothing
(60_exceptions.md R280). -/

namespace Sys2Proof.Machine

/-- The core runs the accepted word: an illegal one does nothing but fault IllegalCommand (30_encoding.md R105). -/
def runCommand (s : State) : Host.Outcome State Fault Refusal :=
  match decode s.fetch with
  | .ok i => exec i s
  | .error _ => .next (s.raise .illegalCommand)

/-- The core's move: nothing when idle. -/
def coreMove (s : State) : Host.Outcome State Fault Refusal :=
  if s.status.busy then runCommand s else .next s

/-- One step of the machine. -/
def step (s : State) : Host.Outcome State Fault Refusal :=
  match s.turns with
  | [] => coreMove s
  | .core :: rest => coreMove { s with turns := rest }
  | .phase :: rest => .next (seqAdvance .free { s with turns := rest })
  | .host a :: rest => .next (({ s with turns := rest } : State).hostAccess a)

/-- The state whose very next step runs the word `w`: the word stands accepted in the command latch (R31), and the core
moves next. It stands for the host's write of `w` to CMD (log 13). -/
def State.withFetchWord (s : State) (nbits w : Nat) : State :=
  { s.acceptWord (BitVec.ofNat 32 (w % 2 ^ nbits)) with turns := .core :: s.turns }

end Sys2Proof.Machine
end

