-- ==== Sys2Proof/Safety.lean ====
section
/-! DEFINITION. The terms the statements use: what a command that ends may have changed (frames), the invariants of the
machine, the tables of spec/30_encoding.md R108 and spec/60_exceptions.md R263, the bus map and the control words bit by
bit, the bytes of a record, the formulas of the point rules written over the integers, and the draws of ENCRYPT as R231
and R235 sort them. Nothing here is used by the machine. -/

namespace Sys2Proof.Machine

/-! ## Frames: how the state `t` after a command stands to the state `s` before it -/

/-- Every byte of the buffers reads as before. -/
def SameMemory (s t : State) : Prop := ∀ a, t.mem.read a = s.mem.read a

/-- Every byte of the buffers reads as before, but for the bytes `bs` stored from address `base`. -/
def StoredAt (s t : State) (base : Nat) (bs : List Byte) : Prop :=
  ∀ a, t.mem.read a = if base ≤ a ∧ a < base + bs.length then bs.getD (a - base) 0 else s.mem.read a

/-- Every byte reads as before, but for the `n` bytes from `base`, which read 0. -/
def ClearedAt (s t : State) (base n : Nat) : Prop :=
  ∀ a, t.mem.read a = if base ≤ a ∧ a < base + n then 0 else s.mem.read a

/-- The block is idle again, its scratch and PHASE are zero, and what lies outside the block is as before (R260, R262). -/
def EndsIdle (s t : State) : Prop :=
  t.status.busy = false ∧ t.status.done = true ∧ t.status.drop = s.status.drop ∧ t.phase = .idle ∧
  t.scratch = .zero ∧ t.cfg = s.cfg ∧ t.turns = s.turns ∧ t.reply = s.reply

/-- Completion without fault (R260): ERR and PVALID keep their values. -/
def EndsOk (s t : State) : Prop :=
  EndsIdle s t ∧ t.status.err = s.status.err ∧ t.status.pvalid = s.status.pvalid

/-- A fault was taken (R262): ERR is set and ERRCODE holds the code. -/
def EndsFaulted (F : CmdFault) (s t : State) : Prop :=
  EndsIdle s t ∧ t.status.err = true ∧ t.regs.errcode = F.code

/-- The registers no command but SETUP and ZEROIZE writes, and CTRL: (a), (b), (c) of R20 and CTRL are as before. -/
def SameSetup (s t : State) : Prop :=
  t.params = s.params ∧ t.keys = s.keys ∧ t.consts = s.consts ∧ t.ctrl = s.ctrl

/-- A faulting command changed nothing but ERR, ERRCODE and DONE (R262), besides leaving BUSY. -/
def FaultsWith (F : CmdFault) (s t : State) : Prop :=
  EndsFaulted F s t ∧ SameSetup s t ∧ t.status.pvalid = s.status.pvalid ∧
  t.f = s.f ∧ t.pt = s.pt ∧ t.flags = s.flags ∧ t.regs = { s.regs with errcode := F.code } ∧
  t.freeCtr = s.freeCtr ∧ SameMemory s t

/-- The command wrote `v` to f[rd] and changed nothing else. -/
def FieldResult (s t : State) (rd : FReg) (v : Nat) : Prop :=
  EndsOk s t ∧ SameSetup s t ∧
  t.getF rd = v ∧ (∀ r, r ≠ rd → t.getF r = s.getF r) ∧
  t.pt = s.pt ∧ t.flags = s.flags ∧ t.regs = s.regs ∧ t.freeCtr = s.freeCtr ∧ SameMemory s t

/-- The command wrote `T` to pt[rd] and changed nothing else. -/
def PointResult (s t : State) (rd : PReg) (T : Triple) : Prop :=
  EndsOk s t ∧ SameSetup s t ∧
  t.getPt rd = T ∧ (∀ j, j ≠ rd → t.getPt j = s.getPt j) ∧
  t.f = s.f ∧ t.flags = s.flags ∧ t.regs = s.regs ∧ t.freeCtr = s.freeCtr ∧ SameMemory s t

/-- The command left the flags as `fl` and changed nothing else. -/
def FlagsResult (s t : State) (fl : Flags) : Prop :=
  EndsOk s t ∧ SameSetup s t ∧ t.flags = fl ∧
  t.f = s.f ∧ t.pt = s.pt ∧ t.regs = s.regs ∧ t.freeCtr = s.freeCtr ∧ SameMemory s t

/-- The command left the control and status registers as `rg` and changed nothing else. -/
def RegsResult (s t : State) (rg : Regs) : Prop :=
  EndsOk s t ∧ SameSetup s t ∧ t.regs = rg ∧
  t.f = s.f ∧ t.pt = s.pt ∧ t.flags = s.flags ∧ t.freeCtr = s.freeCtr ∧ SameMemory s t

/-- The command stored `bs` from address `base`, left the control and status registers as `rg`, and changed nothing
else. -/
def StoreResult (s t : State) (base : Nat) (bs : List Byte) (rg : Regs) : Prop :=
  EndsOk s t ∧ SameSetup s t ∧ t.regs = rg ∧
  t.f = s.f ∧ t.pt = s.pt ∧ t.flags = s.flags ∧ t.freeCtr = s.freeCtr ∧ StoredAt s t base bs

/-- R235's `fail(F)` with `att` draw requests made: REC all zero, RECLEN = 0, ATT = att, and nothing else changed but the
cursor of the random source that was asked. -/
def EncryptFails (F : CmdFault) (att : Nat) (s t : State) : Prop :=
  EndsFaulted F s t ∧ SameSetup s t ∧ t.status.pvalid = s.status.pvalid ∧ t.regs.att.toNat = att ∧
  t.regs = { s.regs with errcode := F.code, reclen := 0, att := t.regs.att, rngpos := t.regs.rngpos } ∧
  t.f = s.f ∧ t.pt = s.pt ∧ t.flags = s.flags ∧ ClearedAt s t 0x3000000 s.cfg.recCap

/-- R245's `fail(F)`: MSG all zero, MSGLEN = 0, and nothing else changed. -/
def DecryptFails (F : CmdFault) (s t : State) : Prop :=
  EndsFaulted F s t ∧ SameSetup s t ∧ t.status.pvalid = s.status.pvalid ∧
  t.regs = { s.regs with errcode := F.code, msglen := 0 } ∧
  t.f = s.f ∧ t.pt = s.pt ∧ t.flags = s.flags ∧ t.freeCtr = s.freeCtr ∧ ClearedAt s t 0x1000000 s.cfg.msgCap

/-! ## Invariants -/

/-- Every wide register holds a W-bit value, PINV0 a w-bit one (R21 to R25). -/
def WidthInv (s : State) : Prop :=
  (∀ r : WideReg, r.get s < 2 ^ s.cfg.fieldBits) ∧ s.consts.pinv0.toNat < 2 ^ s.cfg.limbBits

/-- R23's invariant: PVALID = 1 implies P odd, of full width, A, B, GX, GY below P, and RR, MU, PINV0 the constants of
the current P. -/
def ParamsInv (s : State) : Prop :=
  s.status.pvalid = true →
    (s.params.p % 2 = 1 ∧ 2 ^ (s.cfg.fieldBits - 1) ≤ s.params.p ∧ s.params.p < 2 ^ s.cfg.fieldBits) ∧
    (s.params.a < s.params.p ∧ s.params.b < s.params.p ∧ s.params.gx < s.params.p ∧ s.params.gy < s.params.p) ∧
    s.consts.rr = 2 ^ (2 * s.cfg.fieldBits) % s.params.p ∧
    2 ^ s.cfg.fieldBits + s.consts.mu = 2 ^ (2 * s.cfg.fieldBits) / s.params.p ∧
    (s.params.p * s.consts.pinv0.toNat + 1) % 2 ^ s.cfg.limbBits = 0

/-- The legal configuration, the register widths and R23's invariant. -/
def NumbersInv (s : State) : Prop := s.cfg.Legal ∧ WidthInv s ∧ ParamsInv s

/-- The memory is in its canonical form, and nothing is stored outside the buffers (R72, R80). -/
def MemoryInv (s : State) : Prop :=
  s.cfg.Legal ∧ s.mem.wf = true ∧ ∀ c ∈ s.mem, inBuffer s.cfg c.1 = true

/-- PHASE is IDLE and every bit of the hidden scratch is 0 whenever BUSY = 0 (R27, R46). -/
def IdleInv (s : State) : Prop := s.status.busy = false → s.phase = .idle ∧ s.scratch = .zero

/-- ERRCODE is 0 exactly when ERR = 0 and never above 0x0D, and no command runs while ERR = 1 (R33, R261, R266). -/
def FaultInv (s : State) : Prop :=
  (s.status.err = false ↔ s.regs.errcode = 0) ∧ s.regs.errcode.toNat ≤ 0x0D ∧
  (s.status.busy = true → s.status.err = false)

/-- RNGLEN and RNGPOS are at most 256 (R42), and with TEST_EN = 0 the test source is not there (R275). -/
def TestSourceInv (s : State) : Prop :=
  s.regs.rnglen.toNat ≤ 256 ∧ s.regs.rngpos.toNat ≤ 256 ∧
  (s.cfg.testEn = false → s.regs.rnglen = 0 ∧ s.regs.rngpos = 0 ∧ s.ctrl.testrng = false)

/-! ## Tables -/

/-- The commands of R108(a), which need PVALID. -/
def needsPvalid : Instr → Bool
  | .modadd _ _ _ | .modsub _ _ _ | .modmul _ _ _ | .modsqr _ _ | .montmul _ _ _ => true
  | .tomont _ _ | .frommont _ _ | .modred _ _ _ | .modinv _ _ => true
  | .pdbl _ _ | .padd _ _ _ | .paff _ _ | .peq _ _ | .onc _ _ | .pmul _ _ _ => true
  | .encrypt | .decrypt => true
  | .nop | .setup | .zeroize | .cmp _ _ | .mov _ _ | .ldi _ _ => false
  | .pisinf _ | .psetinf _ | .pldg _ | .pldq _ | .pmov _ _ | .pset _ _ _ | .pget _ _ _ | .schk _ => false
  | .kdf | .renc _ _ | .rdec _ _ | .ctsize | .ptsize | .draw _ => false

/-- The commands of R108(b), which need a hash. -/
def needsHash : Instr → Bool
  | .kdf | .renc _ _ | .rdec _ _ | .ctsize | .ptsize | .encrypt | .decrypt => true
  | .nop | .setup | .zeroize | .cmp _ _ | .mov _ _ | .ldi _ _ => false
  | .modadd _ _ _ | .modsub _ _ _ | .modmul _ _ _ | .modsqr _ _ | .montmul _ _ _ => false
  | .tomont _ _ | .frommont _ _ | .modred _ _ _ | .modinv _ _ => false
  | .pdbl _ _ | .padd _ _ _ | .paff _ _ | .peq _ _ | .onc _ _ | .pmul _ _ _ => false
  | .pisinf _ | .psetinf _ | .pldg _ | .pldq _ | .pmov _ _ | .pset _ _ _ | .pget _ _ _ | .schk _ => false
  | .draw _ => false

/-- The faults a command can raise (R263), in the order of its checks. -/
def mayRaise : Instr → List CmdFault
  | .nop | .zeroize | .cmp _ _ | .mov _ _ | .ldi _ _ => []
  | .pisinf _ | .psetinf _ | .pldg _ | .pldq _ | .pmov _ _ | .pset _ _ _ | .pget _ _ _ => []
  | .setup => [.badParam]
  | .modadd _ _ _ | .modsub _ _ _ | .modmul _ _ _ | .montmul _ _ _ => [.paramsNotReady, .operandRange]
  | .modsqr _ _ | .tomont _ _ | .frommont _ _ => [.paramsNotReady, .operandRange]
  | .modred _ _ _ | .onc _ _ => [.paramsNotReady]
  | .modinv _ _ => [.paramsNotReady, .operandRange, .notInvertible]
  | .pdbl _ _ | .pmul _ _ _ | .padd _ _ _ | .peq _ _ => [.paramsNotReady, .operandRange]
  | .paff _ _ => [.paramsNotReady, .operandRange, .pointAtInfinity]
  | .schk _ => [.invalidScalar]
  | .kdf | .renc _ _ | .ctsize => [.badParam, .invalidLength]
  | .rdec _ _ | .ptsize => [.badParam, .invalidLength, .invalidEncoding]
  | .draw _ => [.randomnessExhausted]
  | .encrypt =>
    [.paramsNotReady, .badParam, .invalidLength, .bufferTooSmall, .invalidCurvePoint, .randomnessExhausted,
      .pointAtInfinity]
  | .decrypt =>
    [.paramsNotReady, .badParam, .invalidScalar, .invalidLength, .invalidEncoding, .bufferTooSmall,
      .authenticationFailed]

/-- The commands that write a condition flag (R28). -/
def writesFlags : Instr → Bool
  | .cmp _ _ | .peq _ _ | .pisinf _ | .onc _ _ => true
  | .nop | .setup | .zeroize | .mov _ _ | .ldi _ _ => false
  | .modadd _ _ _ | .modsub _ _ _ | .modmul _ _ _ | .modsqr _ _ | .montmul _ _ _ => false
  | .tomont _ _ | .frommont _ _ | .modred _ _ _ | .modinv _ _ => false
  | .pdbl _ _ | .padd _ _ _ | .paff _ _ | .pmul _ _ _ => false
  | .psetinf _ | .pldg _ | .pldq _ | .pmov _ _ | .pset _ _ _ | .pget _ _ _ | .schk _ => false
  | .kdf | .renc _ _ | .rdec _ _ | .ctsize | .ptsize | .encrypt | .decrypt | .draw _ => false

/-- The commands the table of 20_memory.md R72 lists as writers of a buffer. -/
def writesBuffer : Instr → Buffer → Bool
  | .decrypt, .msg | .rdec _ _, .msg | .zeroize, .msg => true
  | .encrypt, .record | .renc _ _, .record => true
  | .rdec _ _, .tag | .zeroize, .tag => true
  | .zeroize, .seed | .kdf, .ks | .zeroize, .ks | .zeroize, .rngbuf => true
  | _, _ => false

/-- Two states that differ at most in the private scalar D. -/
def SameButD (s t : State) : Prop := ∃ d, t = { s with keys := { s.keys with d := d } }

end Sys2Proof.Machine

/-! ## The opcode table as data (30_encoding.md R104; spec/opcode_table.json, row by row) -/

namespace Sys2Proof.Spec

/-- The condition a row's mask cannot say (R104). -/
inductive RowConstraint where
  | free
  /-- PGET: sel ≠ 3 -/
  | selNotThree
  /-- RDEC: rd ≠ ra -/
  | rdNotRa
  deriving DecidableEq, Repr

/-- A row of the opcode table: match, mask, constraint. -/
structure TableRow where
  pattern : Word
  mask : Word
  constraint : RowConstraint
  deriving DecidableEq, Repr

/-- R104: the word selects the row. -/
def TableRow.selects (r : TableRow) (w : Word) : Bool :=
  (w &&& r.mask == r.pattern) &&
    match r.constraint with
    | .free => true
    | .selNotThree => w >>> 12 &&& 0xF != 3
    | .rdNotRa => w >>> 20 &&& 0xF != w >>> 16 &&& 0xF

/-- The 37 rows. -/
def opcodeTable : List TableRow :=
  [⟨0x00000000, 0xFFFFFFFF, .free⟩, ⟨0x01000000, 0xFFFFFFFF, .free⟩, ⟨0x02000000, 0xFFFFFFFF, .free⟩,
   ⟨0x10000000, 0xFF000FFF, .free⟩, ⟨0x11000000, 0xFF000FFF, .free⟩, ⟨0x12000000, 0xFF000FFF, .free⟩,
   ⟨0x13000000, 0xFF00FFFF, .free⟩, ⟨0x14000000, 0xFF000FFF, .free⟩, ⟨0x15000000, 0xFF00FFFF, .free⟩,
   ⟨0x16000000, 0xFF00FFFF, .free⟩, ⟨0x17000000, 0xFF000FFF, .free⟩, ⟨0x18000000, 0xFF00FFFF, .free⟩,
   ⟨0x19000000, 0xFFF00FFF, .free⟩, ⟨0x1A000000, 0xFF00FFFF, .free⟩, ⟨0x1B000000, 0xFF0F0000, .free⟩,
   ⟨0x20000000, 0xFFCCFFFF, .free⟩, ⟨0x21000000, 0xFFCCCFFF, .free⟩, ⟨0x22000000, 0xFFCCFFFF, .free⟩,
   ⟨0x23000000, 0xFFFCCFFF, .free⟩, ⟨0x24000000, 0xFFFCFFFF, .free⟩, ⟨0x25000000, 0xFFCFFFFF, .free⟩,
   ⟨0x26000000, 0xFFCFFFFF, .free⟩, ⟨0x27000000, 0xFFCFFFFF, .free⟩, ⟨0x28000000, 0xFFCCFFFF, .free⟩,
   ⟨0x29000000, 0xFFC00FFF, .free⟩, ⟨0x2A000000, 0xFF0CCFFF, .selNotThree⟩, ⟨0x2B000000, 0xFFF00FFF, .free⟩,
   ⟨0x30000000, 0xFFCC0FFF, .free⟩, ⟨0x31000000, 0xFFF0FFFF, .free⟩, ⟨0x40000000, 0xFFFFFFFF, .free⟩,
   ⟨0x50000000, 0xFFF00FFF, .free⟩, ⟨0x51000000, 0xFF00FFFF, .rdNotRa⟩, ⟨0x52000000, 0xFFFFFFFF, .free⟩,
   ⟨0x53000000, 0xFFFFFFFF, .free⟩, ⟨0x60000000, 0xFFFFFFFF, .free⟩, ⟨0x61000000, 0xFFFFFFFF, .free⟩,
   ⟨0x62000000, 0xFF0FFFFF, .free⟩]

end Sys2Proof.Spec

/-! ## The bus map and the words of the control registers (20_memory.md R71, R72; 10_state.md R26, R30, R32, R34) -/

namespace Sys2Proof.Spec

open Sys2Proof.Machine

/-- The address of a wide register's slot (10_state.md R21 to R25, 20_memory.md R71). -/
def slotBase : WideReg → Nat
  | .p => 0x100
  | .a => 0x140
  | .b => 0x180
  | .gx => 0x1C0
  | .gy => 0x200
  | .n => 0x240
  | .qx => 0x280
  | .qy => 0x2C0
  | .d => 0x300
  | .rr => 0x340
  | .mu => 0x380
  | .f r => 0x400 + 0x40 * r.val
  | .ptX j => 0x800 + 0x100 * j.val
  | .ptY j => 0x840 + 0x100 * j.val
  | .ptZ j => 0x880 + 0x100 * j.val

/-- A buffer is there for the host: RNGBUF only with TEST_EN = 1 (R71). -/
abbrev Present (c : Config) (b : Buffer) : Prop := b = .rngbuf → c.testEn = true

/-- Byte address `a` is a byte of a buffer the host reaches. -/
def Buffered (c : Config) (a : Nat) : Prop := ∃ b : Buffer, Present c b ∧ b.base ≤ a ∧ a < b.base + b.cap c

/-- The byte addresses that hold nothing: the reserved ranges of R43 and R71, the fourth slot of each point register
(R25), the bytes of a slot at and beyond FLEN (R26), RNGBUF with TEST_EN = 0, the rest of each window beyond the
buffer's capacity, and what is not decoded. -/
abbrev Reserved (c : Config) (a : Nat) : Prop :=
  (0x04C ≤ a ∧ a < 0x100) ∨ (0x3C0 ≤ a ∧ a < 0x400) ∨
  (0x800 ≤ a ∧ a < 0xC00 ∧ 0xC0 ≤ a % 0x100) ∨
  (0x100 ≤ a ∧ a < 0xC00 ∧ c.flen ≤ a % 0x40) ∨
  (0xC40 ≤ a ∧ a < 0xC80) ∨
  (0xD00 ≤ a ∧ a < 0xE00 ∧ c.testEn = false) ∨
  (0xE00 ≤ a ∧ a < 0x1000000) ∨
  (0x1000000 + c.msgCap ≤ a ∧ a < 0x2000000) ∨
  (0x2000000 + c.msgCap ≤ a ∧ a < 0x3000000) ∨
  (0x3000000 + c.recCap ≤ a ∧ a < 0x4000000) ∨
  0x4000000 ≤ a

/-- The byte in lane `k` of a bus word, lane 0 being bits [31:24] (R75). -/
def lane (v : Word) (k : Nat) : Nat := v.toNat / 256 ^ (3 - k) % 256

/-- Byte `o` of the FLEN-byte big-endian image of a register's value (R26). -/
def regByte (F v o : Nat) : Nat := v / 256 ^ (F - 1 - o) % 256

/-- The word CONFIG returns (R30). -/
def ConfigBits (c : Config) (w : Word) : Prop :=
  w.toNat % 2 ^ 10 = c.fieldBits ∧ w.toNat / 2 ^ 10 % 2 ^ 6 = c.limbBits ∧ w.toNat / 2 ^ 16 % 2 ^ 3 = c.nhash ∧
  w.getLsbD 19 = c.testEn ∧ w.toNat < 2 ^ 20

/-- The word STATUS returns (R32, R28). -/
def StatusBits (s : State) (w : Word) : Prop :=
  w.getLsbD 0 = s.status.busy ∧ w.getLsbD 1 = s.status.done ∧ w.getLsbD 2 = s.status.err ∧
  w.getLsbD 3 = s.status.drop ∧ w.getLsbD 4 = s.status.pvalid ∧
  w.getLsbD 8 = s.flags.z ∧ w.getLsbD 9 = s.flags.c ∧ w.getLsbD 10 = s.flags.i ∧ w.getLsbD 11 = s.flags.v ∧
  ∀ i, (5 ≤ i ∧ i < 8) ∨ 12 ≤ i → w.getLsbD i = false

/-- The word CTRL returns (R34). -/
def CtrlBits (s : State) (w : Word) : Prop :=
  w.getLsbD 0 = s.ctrl.ieDone ∧ w.getLsbD 1 = s.ctrl.ieErr ∧ w.toNat / 2 ^ 4 % 4 = s.ctrl.hsel.toNat ∧
  w.getLsbD 8 = s.ctrl.noempty ∧ w.getLsbD 12 = (s.ctrl.testrng && s.cfg.testEn) ∧
  ∀ i, (2 ≤ i ∧ i < 4) ∨ (6 ≤ i ∧ i < 8) ∨ (9 ≤ i ∧ i < 12) ∨ 13 ≤ i → w.getLsbD i = false

/-! ## The bytes of a record (44_codec.md R201, R202) -/

/-- `l` is the shortest form of the length `n` (R201): the short form below 128, else a count byte and the length in
big-endian bytes of which the first is not zero. -/
def IsLength (n : Nat) (l : List Byte) : Prop :=
  (n < 128 ∧ l = [BitVec.ofNat 8 n]) ∨
  (128 ≤ n ∧ ∃ m : List Byte, l = BitVec.ofNat 8 (0x80 + m.length) :: m ∧ m.length ≤ 4 ∧ os2ip m = n ∧ m.headD 0 ≠ 0)

/-- `X` is the shortest non-negative INTEGER content of `v` (R202): big-endian, the top bit clear, and a leading zero
byte only where the next byte's top bit is set. -/
def IsInteger (v : Nat) (X : List Byte) : Prop :=
  os2ip X = v ∧ X ≠ [] ∧ (X.headD 0).toNat < 0x80 ∧
  (1 < X.length → X.headD 0 = 0 → 0x80 ≤ (X.getD 1 0).toNat)

end Sys2Proof.Spec

/-! ## The point formulas over the integers (42_point.md R161, R174, R175) -/

namespace Sys2Proof.Spec

open Sys2Proof.Machine

/-- The representative of an integer in [0, p) (R10, R13). -/
def residue (p : Nat) (x : Int) : Nat := (x % (p : Int)).toNat

/-- R161's doubling, with the stated polynomials over ℤ reduced once. -/
def double (p a : Nat) (T : Triple) : Triple :=
  if T.z = 0 ∨ T.y = 0 then ⟨0, 0, 0⟩
  else
    let X : Int := T.x
    let Y : Int := T.y
    let Z : Int := T.z
    let S := 4 * X * Y ^ 2
    let M := 3 * X ^ 2 + a * Z ^ 4
    let X3 := M ^ 2 - 2 * S
    ⟨residue p X3, residue p (M * (S - X3) - 8 * Y ^ 4), residue p (2 * Y * Z)⟩

/-- R174's addition, with the stated polynomials over ℤ reduced once. -/
def add (p a : Nat) (T1 T2 : Triple) : Triple :=
  if T1.z = 0 then (if T2.z = 0 then ⟨0, 0, 0⟩ else T2)
  else if T2.z = 0 then T1
  else
    let U1 : Int := T1.x * T2.z ^ 2
    let U2 : Int := T2.x * T1.z ^ 2
    let S1 : Int := T1.y * T2.z ^ 3
    let S2 : Int := T2.y * T1.z ^ 3
    let H := U2 - U1
    let R := S2 - S1
    if residue p H = 0 then (if residue p R = 0 then double p a T1 else ⟨0, 0, 0⟩)
    else
      let X3 := R ^ 2 - H ^ 3 - 2 * U1 * H ^ 2
      ⟨residue p X3, residue p (R * (U1 * H ^ 2 - X3) - S1 * H ^ 3), residue p (H * T1.z * T2.z)⟩

/-- Double and add over the binary digits of `k`, most significant first, with no fixed number of bits: what R175 comes
to when the leading zero bits are left out. `fuel` bounds the number of digits. -/
def ladder (p a : Nat) (T : Triple) : Nat → Nat → Triple
  | 0, _ => ⟨0, 0, 0⟩
  | fuel + 1, k =>
    if k = 0 then ⟨0, 0, 0⟩
    else
      let d := double p a (ladder p a T fuel (k / 2))
      if k % 2 = 1 then add p a d T else d

/-- Byte `i` of the keystream (43_kdf.md R190): request number 1 + i / D carries that counter value; `D` is the digest
length. -/
def kdfByte (hash : List Byte → List Byte) (D : Nat) (seed : List Byte) (i : Nat) : Byte :=
  (hash (seed ++ i2osp (1 + i / D) 4)).getD (i % D) 0

/-- The keystream of `L` bytes (R190). -/
def keystream (hash : List Byte → List Byte) (D : Nat) (seed : List Byte) (L : Nat) : List Byte :=
  (List.range L).map (kdfByte hash D seed)

/-- C1 = [k]G (45_engine.md R235 step 2). -/
def ephemeral (s : State) (k : Nat) : Triple := s.scalarMul k ⟨s.params.gx, s.params.gy, 1⟩

/-- S = [k]Q (R235 step 3). -/
def sharedPoint (s : State) (k : Nat) : Triple := s.scalarMul k ⟨s.keys.qx, s.keys.qy, 1⟩

/-- `FE` of a finite point's affine x coordinate (R233). -/
def xBytes (s : State) (S : Triple) : List Byte := i2osp (s.affine S).1 s.cfg.flen
/-- `FE` of its affine y coordinate. -/
def yBytes (s : State) (S : Triple) : List Byte := i2osp (s.affine S).2 s.cfg.flen

/-- The selected hash on these ports (R82). -/
def hashOf (P : Ports) (s : State) : List Byte → List Byte := P.hash s.hsel (s.cfg.digestLen s.hsel)

/-- The keystream of MSGLEN bytes that the scalar `k` gives (R235 step 4). -/
def streamOf (P : Ports) (s : State) (k : Nat) : List Byte :=
  keystream (hashOf P s) (s.cfg.digestLen s.hsel) (xBytes s (sharedPoint s k) ++ yBytes s (sharedPoint s k))
    s.regs.msglen.toNat

/-- The seven checks of R235 pass. -/
def EncryptReady (s : State) : Prop :=
  s.status.pvalid = true ∧ s.hsel < s.cfg.nhash ∧ s.regs.msglen.toNat ≤ s.cfg.msgCap ∧
  (s.ctrl.noempty = true → s.regs.msglen.toNat ≠ 0) ∧
  wcs s.cfg.flen (s.cfg.digestLen s.hsel) s.regs.msglen.toNat ≤ s.regs.outcap.toNat ∧
  s.isOnCurve s.keys.qx s.keys.qy = true

/-- The selected source delivers its next `m` draws, and draw number j is `k j` (R231): FLEN bytes of RNGBUF each, or an
answer of the production source, whose requests `freeCtr` numbers (log 5). -/
def DrawsAre (P : Ports) (s : State) (m : Nat) (k : Nat → Nat) : Prop :=
  ∀ j, j < m →
    (s.testrng = true → s.regs.rngpos.toNat + (j + 1) * s.cfg.flen ≤ s.regs.rnglen.toNat ∧
      k j = os2ip ((List.range s.cfg.flen).map fun i =>
        s.mem.read (0xD00 + s.regs.rngpos.toNat + j * s.cfg.flen + i))) ∧
    (s.testrng = false → ∃ bs, P.rng (s.freeCtr + j) s.cfg.flen = some bs ∧ k j = os2ip bs)

/-- After `m` draws the selected source refuses the next one (R231). -/
def RefusesAfter (P : Ports) (s : State) (m : Nat) : Prop :=
  (s.testrng = true → s.regs.rngpos.toNat + (m + 1) * s.cfg.flen > s.regs.rnglen.toNat) ∧
  (s.testrng = false → P.rng (s.freeCtr + m) s.cfg.flen = none)

/-- The drawn `k` is one the retry loop passes over (R235): no valid scalar; or C1 is finite and S is at infinity, or the
keystream of a non-empty message is all zero. -/
def Rejected (P : Ports) (s : State) (k : Nat) : Prop :=
  ¬(1 ≤ k ∧ k < s.params.n) ∨
  ((ephemeral s k).z ≠ 0 ∧ ((sharedPoint s k).z = 0 ∨
    (0 < s.regs.msglen.toNat ∧ ∀ i, i < s.regs.msglen.toNat → (streamOf P s k).getD i 0 = 0)))

/-- The drawn `k` is one the retry loop ends with (R235). -/
def Usable (P : Ports) (s : State) (k : Nat) : Prop :=
  1 ≤ k ∧ k < s.params.n ∧ (ephemeral s k).z ≠ 0 ∧ (sharedPoint s k).z ≠ 0 ∧
  (s.regs.msglen.toNat = 0 ∨ ∃ i, i < s.regs.msglen.toNat ∧ (streamOf P s k).getD i 0 ≠ 0)

/-- The cursors of the random sources after `delivered` draws delivered in `asked` requests: the test source's moves by
the draws delivered, the production source's by the requests (R231, log 5). -/
def CursorsMoved (s t : State) (delivered asked : Nat) : Prop :=
  t.regs.rngpos.toNat = s.regs.rngpos.toNat + (if s.testrng then delivered * s.cfg.flen else 0) ∧
  t.freeCtr = s.freeCtr + (if s.testrng then 0 else asked)

/-- What the group law gives for the keys (45_engine.md R254(a)'s reason), as a property of the block's own functions:
for every valid scalar k with [k]G and [k]Q finite, the affine [k]G is on the curve and [d] of it is [k]Q. -/
def SharedPointAgrees (s : State) (d : Nat) : Prop :=
  ∀ k, 1 ≤ k → k < s.params.n →
    (s.scalarMul k s.basePoint).z ≠ 0 → (s.scalarMul k s.publicPoint).z ≠ 0 →
    let x1 := (s.affine (s.scalarMul k s.basePoint)).1
    let y1 := (s.affine (s.scalarMul k s.basePoint)).2
    s.isOnCurve x1 y1 = true ∧
    (s.scalarMul d ⟨x1, y1, 1⟩).z ≠ 0 ∧
    s.affine (s.scalarMul d ⟨x1, y1, 1⟩) = s.affine (s.scalarMul k s.publicPoint)

end Sys2Proof.Spec
end

