-- ==== Sys2Proof/Certificates/Slice0/Obligations.lean ====
section
/-! DEFINITION. The statements for the provers. Each docstring names the rule it formalises. Where a statement needs a
fact that only reachable states have, it takes one of the invariants of Safety.lean as a premise; those are statements of
their own (…IsKept, InvariantsHoldAfterReset). -/

open Sys2Proof Sys2Proof.Machine

/-! ## System commands -/

/-- R120: NOP leaves all state unchanged except DONE. -/
def Obligations.NopOnlyCompletes : Prop :=
  decode 0x00000000 = .ok .nop ∧
  ∀ s : State, ∃ t, exec .nop s = .next t ∧ RegsResult s t s.regs

/-- R121: what SETUP checks, the constants it computes, and what its fault leaves. PINV0 is stated by what it is: the w-bit
number with P · PINV0 ≡ −1 (mod 2^w). -/
def Obligations.SetupChecksAndComputesConstants : Prop :=
  decode 0x01000000 = .ok .setup ∧
  ∀ s : State,
    ((s.params.p % 2 = 0 ∨ s.params.p < 2 ^ (s.cfg.fieldBits - 1) ∨ s.params.a ≥ s.params.p ∨
        s.params.b ≥ s.params.p ∨ s.params.gx ≥ s.params.p ∨ s.params.gy ≥ s.params.p) →
      ∃ t, exec .setup s = .next t ∧ EndsFaulted .badParam s t ∧ t.status.pvalid = false ∧ SameSetup s t ∧
        t.f = s.f ∧ t.pt = s.pt ∧ t.flags = s.flags ∧ t.regs = { s.regs with errcode := 0x03 } ∧
        t.freeCtr = s.freeCtr ∧ SameMemory s t) ∧
    (s.cfg.Legal → WidthInv s →
      s.params.p % 2 = 1 → 2 ^ (s.cfg.fieldBits - 1) ≤ s.params.p → s.params.a < s.params.p →
      s.params.b < s.params.p → s.params.gx < s.params.p → s.params.gy < s.params.p →
      ∃ t, exec .setup s = .next t ∧ EndsIdle s t ∧ t.status.err = s.status.err ∧ t.status.pvalid = true ∧
        t.consts.rr = 2 ^ (2 * s.cfg.fieldBits) % s.params.p ∧
        2 ^ s.cfg.fieldBits + t.consts.mu = 2 ^ (2 * s.cfg.fieldBits) / s.params.p ∧
        t.consts.mu < 2 ^ s.cfg.fieldBits ∧
        (s.params.p * t.consts.pinv0.toNat + 1) % 2 ^ s.cfg.limbBits = 0 ∧
        t.consts.pinv0.toNat < 2 ^ s.cfg.limbBits ∧
        t.params = s.params ∧ t.keys = s.keys ∧ t.ctrl = s.ctrl ∧ t.f = s.f ∧ t.pt = s.pt ∧ t.flags = s.flags ∧
        t.regs = s.regs ∧ t.freeCtr = s.freeCtr ∧ SameMemory s t)

/-- R123: what ZEROIZE clears, and that it leaves the rest. -/
def Obligations.ZeroizeClearsSecretsOnly : Prop :=
  decode 0x02000000 = .ok .zeroize ∧
  ∀ s : State, ∃ t, exec .zeroize s = .next t ∧ EndsOk s t ∧
    t.keys = { s.keys with d := 0 } ∧ (∀ r, t.getF r = 0) ∧ (∀ j, t.getPt j = ⟨0, 0, 0⟩) ∧
    t.regs = { s.regs with msglen := 0, kslen := 0, seedlen := 0, rnglen := 0, rngpos := 0 } ∧
    t.params = s.params ∧ t.consts = s.consts ∧ t.ctrl = s.ctrl ∧ t.flags = s.flags ∧ t.freeCtr = s.freeCtr ∧
    ∀ a, t.mem.read a =
      if (0x1000000 ≤ a ∧ a < 0x1000000 + s.cfg.msgCap) ∨ (0x2000000 ≤ a ∧ a < 0x2000000 + s.cfg.msgCap) ∨
         (0xC80 ≤ a ∧ a < 0xD00) ∨ (0xC00 ≤ a ∧ a < 0xC40) ∨ (0xD00 ≤ a ∧ a < 0xE00)
      then 0 else s.mem.read a

/-! ## Field commands -/

/-- R133, R134: MODADD and MODSUB, their faults and their exact residues. -/
def Obligations.ModAddAndModSubAreExactResidues : Prop :=
  ∀ (rd ra rb : FReg) (s : State),
    decode (wordOf 0x10 (ofFreg rd) (ofFreg ra) (ofFreg rb) 0) = .ok (.modadd rd ra rb) ∧
    decode (wordOf 0x11 (ofFreg rd) (ofFreg ra) (ofFreg rb) 0) = .ok (.modsub rd ra rb) ∧
    (s.status.pvalid = false →
      (∃ t, exec (.modadd rd ra rb) s = .next t ∧ FaultsWith .paramsNotReady s t) ∧
      (∃ t, exec (.modsub rd ra rb) s = .next t ∧ FaultsWith .paramsNotReady s t)) ∧
    (s.status.pvalid = true → (s.getF ra ≥ s.params.p ∨ s.getF rb ≥ s.params.p) →
      (∃ t, exec (.modadd rd ra rb) s = .next t ∧ FaultsWith .operandRange s t) ∧
      (∃ t, exec (.modsub rd ra rb) s = .next t ∧ FaultsWith .operandRange s t)) ∧
    (s.status.pvalid = true → s.getF ra < s.params.p → s.getF rb < s.params.p →
      (∃ t, exec (.modadd rd ra rb) s = .next t ∧
        FieldResult s t rd ((s.getF ra + s.getF rb) % s.params.p)) ∧
      (∃ t, exec (.modsub rd ra rb) s = .next t ∧
        FieldResult s t rd (Spec.residue s.params.p ((s.getF ra : Int) - s.getF rb))))

/-- R137, R138: MODMUL and MODSQR, their faults and their exact residues; the Barrett path gives the same residue. The
premise `NumbersInv` is R23's invariant,
which the two passes of the multiplier need of RR and PINV0. -/
def Obligations.ModMulAndModSqrAreExactResidues : Prop :=
  ∀ (rd ra rb : FReg) (s : State),
    decode (wordOf 0x12 (ofFreg rd) (ofFreg ra) (ofFreg rb) 0) = .ok (.modmul rd ra rb) ∧
    decode (wordOf 0x13 (ofFreg rd) (ofFreg ra) 0 0) = .ok (.modsqr rd ra) ∧
    (s.status.pvalid = false →
      (∃ t, exec (.modmul rd ra rb) s = .next t ∧ FaultsWith .paramsNotReady s t) ∧
      (∃ t, exec (.modsqr rd ra) s = .next t ∧ FaultsWith .paramsNotReady s t)) ∧
    (s.status.pvalid = true → (s.getF ra ≥ s.params.p ∨ s.getF rb ≥ s.params.p) →
      ∃ t, exec (.modmul rd ra rb) s = .next t ∧ FaultsWith .operandRange s t) ∧
    (s.status.pvalid = true → s.getF ra ≥ s.params.p →
      ∃ t, exec (.modsqr rd ra) s = .next t ∧ FaultsWith .operandRange s t) ∧
    (NumbersInv s → s.status.pvalid = true → s.getF ra < s.params.p → s.getF rb < s.params.p →
      (∃ t, exec (.modmul rd ra rb) s = .next t ∧
        FieldResult s t rd ((s.getF ra * s.getF rb) % s.params.p)) ∧
      barrettReduce s.cfg.fieldBits s.params.p s.consts.mu (s.getF ra * s.getF rb) =
        (s.getF ra * s.getF rb) % s.params.p) ∧
    (NumbersInv s → s.status.pvalid = true → s.getF ra < s.params.p →
      ∃ t, exec (.modsqr rd ra) s = .next t ∧ FieldResult s t rd (s.getF ra ^ 2 % s.params.p))

/-- R136, R139, R140: MONTMUL, TOMONT and FROMMONT. A result by R⁻¹ is stated as R135 states it: the residue t below p
with t · 2^W ≡ a · b (mod p). The last clause holds R140's two laws. -/
def Obligations.MontgomeryCommandsScaleByR : Prop :=
  ∀ (rd ra rb : FReg) (s : State),
    decode (wordOf 0x14 (ofFreg rd) (ofFreg ra) (ofFreg rb) 0) = .ok (.montmul rd ra rb) ∧
    decode (wordOf 0x15 (ofFreg rd) (ofFreg ra) 0 0) = .ok (.tomont rd ra) ∧
    decode (wordOf 0x16 (ofFreg rd) (ofFreg ra) 0 0) = .ok (.frommont rd ra) ∧
    (s.status.pvalid = false →
      (∃ t, exec (.montmul rd ra rb) s = .next t ∧ FaultsWith .paramsNotReady s t) ∧
      (∃ t, exec (.tomont rd ra) s = .next t ∧ FaultsWith .paramsNotReady s t) ∧
      (∃ t, exec (.frommont rd ra) s = .next t ∧ FaultsWith .paramsNotReady s t)) ∧
    (s.status.pvalid = true → (s.getF ra ≥ s.params.p ∨ s.getF rb ≥ s.params.p) →
      ∃ t, exec (.montmul rd ra rb) s = .next t ∧ FaultsWith .operandRange s t) ∧
    (s.status.pvalid = true → s.getF ra ≥ s.params.p →
      (∃ t, exec (.tomont rd ra) s = .next t ∧ FaultsWith .operandRange s t) ∧
      (∃ t, exec (.frommont rd ra) s = .next t ∧ FaultsWith .operandRange s t)) ∧
    (NumbersInv s → s.status.pvalid = true → s.getF ra < s.params.p → s.getF rb < s.params.p →
      ∃ t v, exec (.montmul rd ra rb) s = .next t ∧ FieldResult s t rd v ∧ v < s.params.p ∧
        v * 2 ^ s.cfg.fieldBits % s.params.p = s.getF ra * s.getF rb % s.params.p) ∧
    (NumbersInv s → s.status.pvalid = true → s.getF ra < s.params.p →
      (∃ t, exec (.tomont rd ra) s = .next t ∧
        FieldResult s t rd (s.getF ra * 2 ^ s.cfg.fieldBits % s.params.p)) ∧
      (∃ t v, exec (.frommont rd ra) s = .next t ∧ FieldResult s t rd v ∧ v < s.params.p ∧
        v * 2 ^ s.cfg.fieldBits % s.params.p = s.getF ra) ∧
      s.mont (s.mont (s.getF ra) s.consts.rr) 1 = s.getF ra ∧
      (s.getF rb < s.params.p →
        s.mont (s.mont (s.mont (s.getF ra) s.consts.rr) (s.mont (s.getF rb) s.consts.rr)) 1 =
          s.getF ra * s.getF rb % s.params.p))

/-- R142: MODRED reduces the double-width value {f[ra], f[rb]}; it checks no operand. -/
def Obligations.ModRedReducesDoubleWidth : Prop :=
  ∀ (rd ra rb : FReg) (s : State),
    decode (wordOf 0x17 (ofFreg rd) (ofFreg ra) (ofFreg rb) 0) = .ok (.modred rd ra rb) ∧
    (s.status.pvalid = false →
      ∃ t, exec (.modred rd ra rb) s = .next t ∧ FaultsWith .paramsNotReady s t) ∧
    (NumbersInv s → s.status.pvalid = true →
      ∃ t, exec (.modred rd ra rb) s = .next t ∧
        FieldResult s t rd ((s.getF ra * 2 ^ s.cfg.fieldBits + s.getF rb) % s.params.p))

/-- R144: MODINV, its three faults in order, its result a^(p−2) mod p, which is the inverse when p is prime (R143). -/
def Obligations.ModInvIsFermatPower : Prop :=
  ∀ (rd ra : FReg) (s : State),
    decode (wordOf 0x18 (ofFreg rd) (ofFreg ra) 0 0) = .ok (.modinv rd ra) ∧
    (s.status.pvalid = false →
      ∃ t, exec (.modinv rd ra) s = .next t ∧ FaultsWith .paramsNotReady s t) ∧
    (s.status.pvalid = true → s.getF ra ≥ s.params.p →
      ∃ t, exec (.modinv rd ra) s = .next t ∧ FaultsWith .operandRange s t) ∧
    (s.status.pvalid = true → s.getF ra < s.params.p → s.getF ra = 0 →
      ∃ t, exec (.modinv rd ra) s = .next t ∧ FaultsWith .notInvertible s t) ∧
    (NumbersInv s → s.status.pvalid = true → s.getF ra < s.params.p → s.getF ra ≠ 0 →
      ∃ t, exec (.modinv rd ra) s = .next t ∧
        FieldResult s t rd (s.getF ra ^ (s.params.p - 2) % s.params.p) ∧
        (s.params.p.Prime → s.getF ra * t.getF rd % s.params.p = 1))

/-- R145: CMP writes Z and C from the raw W-bit values, with no check. -/
def Obligations.CmpWritesZAndC : Prop :=
  ∀ (ra rb : FReg) (s : State),
    decode (wordOf 0x19 0 (ofFreg ra) (ofFreg rb) 0) = .ok (.cmp ra rb) ∧
    ∃ t, exec (.cmp ra rb) s = .next t ∧
      FlagsResult s t { s.flags with z := decide (s.getF ra = s.getF rb), c := decide (s.getF ra < s.getF rb) }

/-- R146, R147: MOV copies, LDI writes the zero-extended immediate modulo 2^W; neither reduces modulo p. -/
def Obligations.MovAndLdiWriteAnyValue : Prop :=
  ∀ (rd ra : FReg) (imm : BitVec 16) (s : State),
    decode (wordOf 0x1A (ofFreg rd) (ofFreg ra) 0 0) = .ok (.mov rd ra) ∧
    decode (wordOfImm 0x1B (ofFreg rd) 0 imm) = .ok (.ldi rd imm) ∧
    (∃ t, exec (.mov rd ra) s = .next t ∧ FieldResult s t rd (s.getF ra)) ∧
    (∃ t, exec (.ldi rd imm) s = .next t ∧ FieldResult s t rd (imm.toNat % 2 ^ s.cfg.fieldBits))

/-! ## Point commands -/

/-- R161, R162: PDBL writes the doubling polynomials, computed exactly and reduced once. -/
def Obligations.PdblWritesTheDoublingFormula : Prop :=
  ∀ (rd ra : PReg) (s : State),
    let T := s.getPt ra
    decode (wordOf 0x20 (ofPreg rd) (ofPreg ra) 0 0) = .ok (.pdbl rd ra) ∧
    (s.status.pvalid = false → ∃ t, exec (.pdbl rd ra) s = .next t ∧ FaultsWith .paramsNotReady s t) ∧
    (s.status.pvalid = true → (T.x ≥ s.params.p ∨ T.y ≥ s.params.p ∨ T.z ≥ s.params.p) →
      ∃ t, exec (.pdbl rd ra) s = .next t ∧ FaultsWith .operandRange s t) ∧
    (s.status.pvalid = true → T.x < s.params.p → T.y < s.params.p → T.z < s.params.p →
      ∃ t, exec (.pdbl rd ra) s = .next t ∧ PointResult s t rd (Spec.double s.params.p s.params.a T))

/-- R174, R163: PADD writes the addition polynomials with their special cases, computed exactly and reduced once. -/
def Obligations.PaddWritesTheAdditionFormula : Prop :=
  ∀ (rd ra rb : PReg) (s : State),
    let T := s.getPt ra
    let U := s.getPt rb
    decode (wordOf 0x21 (ofPreg rd) (ofPreg ra) (ofPreg rb) 0) = .ok (.padd rd ra rb) ∧
    (s.status.pvalid = false → ∃ t, exec (.padd rd ra rb) s = .next t ∧ FaultsWith .paramsNotReady s t) ∧
    (s.status.pvalid = true →
      (T.x ≥ s.params.p ∨ T.y ≥ s.params.p ∨ T.z ≥ s.params.p ∨
        U.x ≥ s.params.p ∨ U.y ≥ s.params.p ∨ U.z ≥ s.params.p) →
      ∃ t, exec (.padd rd ra rb) s = .next t ∧ FaultsWith .operandRange s t) ∧
    (s.status.pvalid = true → T.x < s.params.p → T.y < s.params.p → T.z < s.params.p →
      U.x < s.params.p → U.y < s.params.p → U.z < s.params.p →
      ∃ t, exec (.padd rd ra rb) s = .next t ∧ PointResult s t rd (Spec.add s.params.p s.params.a T U))

/-- R164, R178: PAFF, its three faults in order, and the affine triple with Z⁻¹ = Z^(p−2). -/
def Obligations.PaffWritesTheAffinePoint : Prop :=
  ∀ (rd ra : PReg) (s : State),
    let T := s.getPt ra
    let p := s.params.p
    decode (wordOf 0x22 (ofPreg rd) (ofPreg ra) 0 0) = .ok (.paff rd ra) ∧
    (s.status.pvalid = false → ∃ t, exec (.paff rd ra) s = .next t ∧ FaultsWith .paramsNotReady s t) ∧
    (s.status.pvalid = true → (T.x ≥ p ∨ T.y ≥ p ∨ T.z ≥ p) →
      ∃ t, exec (.paff rd ra) s = .next t ∧ FaultsWith .operandRange s t) ∧
    (s.status.pvalid = true → T.x < p → T.y < p → T.z < p → T.z = 0 →
      ∃ t, exec (.paff rd ra) s = .next t ∧ FaultsWith .pointAtInfinity s t) ∧
    (NumbersInv s → s.status.pvalid = true → T.x < p → T.y < p → T.z < p → T.z ≠ 0 →
      ∃ t, exec (.paff rd ra) s = .next t ∧
        PointResult s t rd ⟨T.x * (T.z ^ (p - 2)) ^ 2 % p, T.y * (T.z ^ (p - 2)) ^ 3 % p, 1⟩ ∧
        (T.z = 1 → t.getPt rd = T))

/-- R165: PEQ sets Z exactly when both triples are infinite or both are finite and agree cross-multiplied. -/
def Obligations.PeqComparesPoints : Prop :=
  ∀ (ra rb : PReg) (s : State),
    let T := s.getPt ra
    let U := s.getPt rb
    let p := s.params.p
    decode (wordOf 0x23 0 (ofPreg ra) (ofPreg rb) 0) = .ok (.peq ra rb) ∧
    (s.status.pvalid = false → ∃ t, exec (.peq ra rb) s = .next t ∧ FaultsWith .paramsNotReady s t) ∧
    (s.status.pvalid = true → (T.x ≥ p ∨ T.y ≥ p ∨ T.z ≥ p ∨ U.x ≥ p ∨ U.y ≥ p ∨ U.z ≥ p) →
      ∃ t, exec (.peq ra rb) s = .next t ∧ FaultsWith .operandRange s t) ∧
    (s.status.pvalid = true → T.x < p → T.y < p → T.z < p → U.x < p → U.y < p → U.z < p →
      ∃ t, exec (.peq ra rb) s = .next t ∧
        FlagsResult s t { s.flags with z := decide ((T.z = 0 ∧ U.z = 0) ∨ (T.z ≠ 0 ∧ U.z ≠ 0 ∧
          T.x * U.z ^ 2 % p = U.x * T.z ^ 2 % p ∧ T.y * U.z ^ 3 % p = U.y * T.z ^ 3 % p)) })

/-- R166, R173, R179: PISINF writes I, ONC writes V; ONC checks no operand and answers 0 for a value ≥ p. -/
def Obligations.PisinfAndOncWriteTheirFlag : Prop :=
  ∀ (pa : PReg) (ra rb : FReg) (s : State),
    let x := s.getF ra
    let y := s.getF rb
    let p := s.params.p
    decode (wordOf 0x24 0 (ofPreg pa) 0 0) = .ok (.pisinf pa) ∧
    decode (wordOf 0x2B 0 (ofFreg ra) (ofFreg rb) 0) = .ok (.onc ra rb) ∧
    (∃ t, exec (.pisinf pa) s = .next t ∧
      FlagsResult s t { s.flags with i := decide ((s.getPt pa).z = 0) }) ∧
    (s.status.pvalid = false → ∃ t, exec (.onc ra rb) s = .next t ∧ FaultsWith .paramsNotReady s t) ∧
    (s.status.pvalid = true → ∃ t, exec (.onc ra rb) s = .next t ∧
      FlagsResult s t { s.flags with v := decide (x < p ∧ y < p ∧
        y ^ 2 % p = (x ^ 3 + s.params.a * x + s.params.b) % p) })

/-- R167 to R172: the point register commands that compute nothing and check nothing. -/
def Obligations.PointMovesCopyExactly : Prop :=
  ∀ (pd pa : PReg) (fd fa fb : FReg) (s : State),
    decode (wordOf 0x25 (ofPreg pd) 0 0 0) = .ok (.psetinf pd) ∧
    decode (wordOf 0x26 (ofPreg pd) 0 0 0) = .ok (.pldg pd) ∧
    decode (wordOf 0x27 (ofPreg pd) 0 0 0) = .ok (.pldq pd) ∧
    decode (wordOf 0x28 (ofPreg pd) (ofPreg pa) 0 0) = .ok (.pmov pd pa) ∧
    decode (wordOf 0x29 (ofPreg pd) (ofFreg fa) (ofFreg fb) 0) = .ok (.pset pd fa fb) ∧
    decode (wordOf 0x2A (ofFreg fd) (ofPreg pa) 0 0) = .ok (.pget fd pa .x) ∧
    decode (wordOf 0x2A (ofFreg fd) (ofPreg pa) 1 0) = .ok (.pget fd pa .y) ∧
    decode (wordOf 0x2A (ofFreg fd) (ofPreg pa) 2 0) = .ok (.pget fd pa .z) ∧
    (∀ sel : BitVec 4, 3 ≤ sel.toNat → ∃ e, decode (wordOf 0x2A (ofFreg fd) (ofPreg pa) sel 0) = .error e) ∧
    (∃ t, exec (.psetinf pd) s = .next t ∧ PointResult s t pd ⟨0, 0, 0⟩) ∧
    (∃ t, exec (.pldg pd) s = .next t ∧ PointResult s t pd ⟨s.params.gx, s.params.gy, 1⟩) ∧
    (∃ t, exec (.pldq pd) s = .next t ∧ PointResult s t pd ⟨s.keys.qx, s.keys.qy, 1⟩) ∧
    (∃ t, exec (.pmov pd pa) s = .next t ∧ PointResult s t pd (s.getPt pa)) ∧
    (∃ t, exec (.pset pd fa fb) s = .next t ∧ PointResult s t pd ⟨s.getF fa, s.getF fb, 1⟩) ∧
    (∃ t, exec (.pget fd pa .x) s = .next t ∧ FieldResult s t fd (s.getPt pa).x) ∧
    (∃ t, exec (.pget fd pa .y) s = .next t ∧ FieldResult s t fd (s.getPt pa).y) ∧
    (∃ t, exec (.pget fd pa .z) s = .next t ∧ FieldResult s t fd (s.getPt pa).z)

/-- R175, R176: PMUL, its faults, and that its fixed W steps come to double-and-add over the digits of the scalar; the
scalar is not checked. -/
def Obligations.PmulDoublesAndAddsOverTheScalar : Prop :=
  ∀ (rd ra : PReg) (rb : FReg) (s : State),
    let T := s.getPt ra
    let p := s.params.p
    decode (wordOf 0x30 (ofPreg rd) (ofPreg ra) (ofFreg rb) 0) = .ok (.pmul rd ra rb) ∧
    (s.status.pvalid = false → ∃ t, exec (.pmul rd ra rb) s = .next t ∧ FaultsWith .paramsNotReady s t) ∧
    (s.status.pvalid = true → (T.x ≥ p ∨ T.y ≥ p ∨ T.z ≥ p) →
      ∃ t, exec (.pmul rd ra rb) s = .next t ∧ FaultsWith .operandRange s t) ∧
    (WidthInv s → s.status.pvalid = true → T.x < p → T.y < p → T.z < p →
      ∃ t, exec (.pmul rd ra rb) s = .next t ∧
        PointResult s t rd (Spec.ladder p s.params.a T s.cfg.fieldBits (s.getF rb)) ∧
        (s.getF rb = 0 → t.getPt rd = ⟨0, 0, 0⟩) ∧ (T.z = 0 → (t.getPt rd).z = 0))

/-- R177: SCHK faults InvalidScalar outside [1, N − 1] and otherwise does nothing. -/
def Obligations.SchkFaultsOutsideTheScalarRange : Prop :=
  ∀ (ra : FReg) (s : State),
    decode (wordOf 0x31 0 (ofFreg ra) 0 0) = .ok (.schk ra) ∧
    (1 ≤ s.getF ra ∧ s.getF ra ≤ s.params.n - 1 →
      ∃ t, exec (.schk ra) s = .next t ∧ RegsResult s t s.regs) ∧
    (¬(1 ≤ s.getF ra ∧ s.getF ra ≤ s.params.n - 1) →
      ∃ t, exec (.schk ra) s = .next t ∧ FaultsWith .invalidScalar s t)

/-! ## KDF and record commands -/

/-- R191: command KDF, its faults in order, and the bytes it stores to KS, each by its own hash request (R190). -/
def Obligations.KdfStoresTheKeystream : Prop :=
  decode 0x40000000 = .ok .kdf ∧
  ∀ s : State,
    (s.hsel ≥ s.cfg.nhash → ∃ t, exec .kdf s = .next t ∧ FaultsWith .badParam s t) ∧
    (s.hsel < s.cfg.nhash →
      (s.regs.seedlen.toNat > 128 ∨ s.regs.kslen.toNat > s.cfg.msgCap ∨
        s.regs.kslen.toNat > 2 ^ 32 * s.cfg.digestLen s.hsel) →
      ∃ t, exec .kdf s = .next t ∧ FaultsWith .invalidLength s t) ∧
    (MemoryInv s → s.hsel < s.cfg.nhash → s.regs.seedlen.toNat ≤ 128 → s.regs.kslen.toNat ≤ s.cfg.msgCap →
      ∃ t, exec .kdf s = .next t ∧
        StoreResult s t 0x2000000
          (Spec.keystream (Ports.free.hash s.hsel (s.cfg.digestLen s.hsel)) (s.cfg.digestLen s.hsel)
            ((List.range s.regs.seedlen.toNat).map fun i => s.mem.read (0xC80 + i)) s.regs.kslen.toNat)
          s.regs)

/-- R209: RENC, its faults in order, and the record it stores; it checks no range, no OUTCAP, no NOEMPTY. -/
def Obligations.RencStoresTheRecord : Prop :=
  ∀ (ra rb : FReg) (s : State),
    decode (wordOf 0x50 0 (ofFreg ra) (ofFreg rb) 0) = .ok (.renc ra rb) ∧
    (s.hsel ≥ s.cfg.nhash → ∃ t, exec (.renc ra rb) s = .next t ∧ FaultsWith .badParam s t) ∧
    (s.hsel < s.cfg.nhash → s.regs.msglen.toNat > s.cfg.msgCap →
      ∃ t, exec (.renc ra rb) s = .next t ∧ FaultsWith .invalidLength s t) ∧
    (MemoryInv s → s.hsel < s.cfg.nhash → s.regs.msglen.toNat ≤ s.cfg.msgCap →
      let r := encodeRecord s.cfg.flen (s.getF ra) (s.getF rb)
        ((List.range (s.cfg.digestLen s.hsel)).map fun i => s.mem.read (0xC00 + i))
        ((List.range s.regs.msglen.toNat).map fun i => s.mem.read (0x1000000 + i))
      r.length ≤ s.cfg.recCap ∧
      ∃ t, exec (.renc ra rb) s = .next t ∧ t.regs.reclen.toNat = r.length ∧
        StoreResult s t 0x3000000 r { s.regs with reclen := t.regs.reclen })

/-- R214: RDEC, its faults in order, all or nothing, and the four destinations it writes. -/
def Obligations.RdecWritesTheDecodedFields : Prop :=
  ∀ (rd ra : FReg) (s : State), rd ≠ ra →
    let rec? := decodeRecord s.cfg.flen
      ((List.range s.regs.reclen.toNat).map fun i => s.mem.read (0x3000000 + i))
      (s.cfg.digestLen s.hsel) s.ctrl.noempty
    decode (wordOf 0x51 (ofFreg rd) (ofFreg ra) 0 0) = .ok (.rdec rd ra) ∧
    (s.hsel ≥ s.cfg.nhash → ∃ t, exec (.rdec rd ra) s = .next t ∧ FaultsWith .badParam s t) ∧
    (s.hsel < s.cfg.nhash → s.regs.reclen.toNat > s.cfg.recCap →
      ∃ t, exec (.rdec rd ra) s = .next t ∧ FaultsWith .invalidLength s t) ∧
    (s.hsel < s.cfg.nhash → s.regs.reclen.toNat ≤ s.cfg.recCap → rec? = none →
      ∃ t, exec (.rdec rd ra) s = .next t ∧ FaultsWith .invalidEncoding s t) ∧
    (s.hsel < s.cfg.nhash → s.regs.reclen.toNat ≤ s.cfg.recCap →
      ∀ r, rec? = some r → r.body.length > s.cfg.msgCap →
      ∃ t, exec (.rdec rd ra) s = .next t ∧ FaultsWith .invalidLength s t) ∧
    (MemoryInv s → s.hsel < s.cfg.nhash → s.regs.reclen.toNat ≤ s.cfg.recCap →
      ∀ r, rec? = some r → r.body.length ≤ s.cfg.msgCap →
      ∃ t, exec (.rdec rd ra) s = .next t ∧ EndsOk s t ∧ SameSetup s t ∧
        t.getF rd = r.x1 ∧ t.getF ra = r.y1 ∧ (∀ q, q ≠ rd → q ≠ ra → t.getF q = s.getF q) ∧
        t.regs.msglen.toNat = r.body.length ∧ t.regs = { s.regs with msglen := t.regs.msglen } ∧
        t.pt = s.pt ∧ t.flags = s.flags ∧ t.freeCtr = s.freeCtr ∧ r.tag.length = s.cfg.digestLen s.hsel ∧
        ∀ a, t.mem.read a =
          if 0x1000000 ≤ a ∧ a < 0x1000000 + r.body.length then r.body.getD (a - 0x1000000) 0
          else if 0xC00 ≤ a ∧ a < 0xC00 + r.tag.length then r.tag.getD (a - 0xC00) 0
          else s.mem.read a)

/-- R207, R215: CTSIZE and PTSIZE, their faults in order, and RESULT; nothing else changes. -/
def Obligations.SizeCommandsWriteOnlyResult : Prop :=
  decode 0x52000000 = .ok .ctsize ∧ decode 0x53000000 = .ok .ptsize ∧
  ∀ s : State,
    let len? := plainLen ((List.range s.regs.reclen.toNat).map fun i => s.mem.read (0x3000000 + i))
      (s.cfg.digestLen s.hsel) s.ctrl.noempty
    (s.hsel ≥ s.cfg.nhash →
      (∃ t, exec .ctsize s = .next t ∧ FaultsWith .badParam s t) ∧
      (∃ t, exec .ptsize s = .next t ∧ FaultsWith .badParam s t)) ∧
    (s.hsel < s.cfg.nhash → s.regs.msglen.toNat > s.cfg.msgCap →
      ∃ t, exec .ctsize s = .next t ∧ FaultsWith .invalidLength s t) ∧
    (s.hsel < s.cfg.nhash → s.regs.reclen.toNat > s.cfg.recCap →
      ∃ t, exec .ptsize s = .next t ∧ FaultsWith .invalidLength s t) ∧
    (s.hsel < s.cfg.nhash → s.regs.reclen.toNat ≤ s.cfg.recCap → len? = none →
      ∃ t, exec .ptsize s = .next t ∧ FaultsWith .invalidEncoding s t) ∧
    (s.cfg.Legal → s.hsel < s.cfg.nhash → s.regs.msglen.toNat ≤ s.cfg.msgCap →
      ∃ t, exec .ctsize s = .next t ∧
        t.regs.result.toNat = wcs s.cfg.flen (s.cfg.digestLen s.hsel) s.regs.msglen.toNat ∧
        RegsResult s t { s.regs with result := t.regs.result }) ∧
    (s.cfg.Legal → s.hsel < s.cfg.nhash → s.regs.reclen.toNat ≤ s.cfg.recCap → ∀ n, len? = some n →
      ∃ t, exec .ptsize s = .next t ∧ t.regs.result.toNat = n ∧
        RegsResult s t { s.regs with result := t.regs.result })

/-! ## The engine -/

/-- R231, R232: DRAW. With the test source it delivers the next FLEN bytes of RNGBUF and moves RNGPOS, or faults with the
cursor where it was. With the production source, whose answer is free, it delivers those bytes or faults. `freeCtr` is the
model's own count of requests to the production source (log 5). -/
def Obligations.DrawDeliversOrFaults : Prop :=
  ∀ (rd : FReg) (s : State),
    decode (wordOf 0x62 (ofFreg rd) 0 0 0) = .ok (.draw rd) ∧
    (s.testrng = true → s.regs.rngpos.toNat + s.cfg.flen ≤ s.regs.rnglen.toNat →
      ∃ t, exec (.draw rd) s = .next t ∧ EndsOk s t ∧ SameSetup s t ∧
        t.getF rd = os2ip ((List.range s.cfg.flen).map fun i => s.mem.read (0xD00 + s.regs.rngpos.toNat + i)) ∧
        (∀ r, r ≠ rd → t.getF r = s.getF r) ∧
        t.regs.rngpos.toNat = s.regs.rngpos.toNat + s.cfg.flen ∧
        t.regs = { s.regs with rngpos := t.regs.rngpos } ∧
        t.pt = s.pt ∧ t.flags = s.flags ∧ t.freeCtr = s.freeCtr ∧ SameMemory s t) ∧
    (s.testrng = true → s.regs.rngpos.toNat + s.cfg.flen > s.regs.rnglen.toNat →
      ∃ t, exec (.draw rd) s = .next t ∧ FaultsWith .randomnessExhausted s t) ∧
    (s.testrng = false →
      ∃ t, exec (.draw rd) s = .next t ∧ SameSetup s t ∧ t.status.pvalid = s.status.pvalid ∧
        t.pt = s.pt ∧ t.flags = s.flags ∧ SameMemory s t ∧
        (∀ r, r ≠ rd → t.getF r = s.getF r) ∧ t.freeCtr = s.freeCtr + 1 ∧
        match Ports.free.rng s.freeCtr s.cfg.flen with
        | none => EndsFaulted .randomnessExhausted s t ∧ t.getF rd = s.getF rd ∧
            t.regs = { s.regs with errcode := 0x07 }
        | some bs => EndsOk s t ∧ t.getF rd = os2ip bs ∧ bs.length = s.cfg.flen ∧ t.regs = s.regs)

/-- R235, R236 (with R231, R233): ENCRYPT completes when its checks pass and, after `n` rejected draws, a draw is a usable
scalar, within MAXATT draws: the record stored, RECLEN, ATT = n + 1 and the cursor of the source that was asked, and that it
changes nothing else. `k j` is draw number j. The ports are any lawful ones; the command runs with the free ones. That
production requests are numbered by `freeCtr` is the model's choice (log 5). -/
def Obligations.EncryptStoresTheRecord : Prop :=
  (∀ s : State, exec .encrypt s = .next (encryptWith .free s)) ∧ Ports.free.Lawful ∧
  ∀ (P : Ports) (s : State) (n : Nat) (k : Nat → Nat),
    P.Lawful → MemoryInv s → Spec.EncryptReady s → n < s.regs.maxatt.toNat → Spec.DrawsAre P s (n + 1) k →
    (∀ j, j < n → Spec.Rejected P s (k j)) → Spec.Usable P s (k n) →
    let M := (List.range s.regs.msglen.toNat).map fun i => s.mem.read (0x1000000 + i)
    let C1 := Spec.ephemeral s (k n)
    let S := Spec.sharedPoint s (k n)
    let r := encodeRecord s.cfg.flen (s.affine C1).1 (s.affine C1).2
      (Spec.hashOf P s (Spec.xBytes s S ++ M ++ Spec.yBytes s S)) (xorBytes M (Spec.streamOf P s (k n)))
    let t := encryptWith P s
    EndsOk s t ∧ SameSetup s t ∧
    t.regs.reclen.toNat = r.length ∧ t.regs.att.toNat = n + 1 ∧ Spec.CursorsMoved s t (n + 1) (n + 1) ∧
    t.regs = { s.regs with reclen := t.regs.reclen, rngpos := t.regs.rngpos, att := t.regs.att } ∧
    t.f = s.f ∧ t.pt = s.pt ∧ t.flags = s.flags ∧ StoredAt s t 0x3000000 r

/-- R235, R236, R262(2), R263: the checks of ENCRYPT in their order, each with its fault, ATT = 0 and no draw; how the retry
loop faults after `n` rejected draws: RandomnessExhausted when MAXATT draws are made or the source refuses, PointAtInfinity
when a valid scalar has [k]G at infinity; and every fault of ENCRYPT, whichever it is, leaves REC all zero, RECLEN = 0 and
ATT at most MAXATT. The ports of the loop are any lawful ones; the command runs with the free ones. -/
def Obligations.EncryptFaultsClearTheRecord : Prop :=
  (∀ s : State,
    let D := s.cfg.digestLen s.hsel
    let L := s.regs.msglen.toNat
    let checkFault : CmdFault → Prop := fun F =>
      ∃ t, exec .encrypt s = .next t ∧ EncryptFails F 0 s t ∧ Spec.CursorsMoved s t 0 0
    (s.status.pvalid = false → checkFault .paramsNotReady) ∧
    (s.status.pvalid = true → s.hsel ≥ s.cfg.nhash → checkFault .badParam) ∧
    (s.status.pvalid = true → s.hsel < s.cfg.nhash →
      (L > s.cfg.msgCap ∨ (s.ctrl.noempty = true ∧ L = 0)) → checkFault .invalidLength) ∧
    (s.cfg.Legal → s.status.pvalid = true → s.hsel < s.cfg.nhash → L ≤ s.cfg.msgCap →
      (s.ctrl.noempty = true → L ≠ 0) →
      (s.regs.outcap.toNat < wcs s.cfg.flen D L → checkFault .bufferTooSmall) ∧
      (wcs s.cfg.flen D L ≤ s.regs.outcap.toNat → s.isOnCurve s.keys.qx s.keys.qy = false →
        checkFault .invalidCurvePoint) ∧
      (wcs s.cfg.flen D L ≤ s.regs.outcap.toNat → s.isOnCurve s.keys.qx s.keys.qy = true → s.regs.maxatt = 0 →
        checkFault .randomnessExhausted))) ∧
  ((∀ s : State, exec .encrypt s = .next (encryptWith .free s)) ∧ Ports.free.Lawful) ∧
  (∀ (P : Ports) (s : State) (n : Nat) (k : Nat → Nat),
    let t := encryptWith P s
    P.Lawful → s.cfg.Legal → Spec.EncryptReady s → (∀ j, j < n → Spec.Rejected P s (k j)) →
    (n = s.regs.maxatt.toNat → Spec.DrawsAre P s n k →
      EncryptFails .randomnessExhausted n s t ∧ Spec.CursorsMoved s t n n) ∧
    (n < s.regs.maxatt.toNat → Spec.DrawsAre P s n k → Spec.RefusesAfter P s n →
      EncryptFails .randomnessExhausted (n + 1) s t ∧ Spec.CursorsMoved s t n (n + 1)) ∧
    (n < s.regs.maxatt.toNat → Spec.DrawsAre P s (n + 1) k → 1 ≤ k n → k n < s.params.n →
      (Spec.ephemeral s (k n)).z = 0 →
      EncryptFails .pointAtInfinity (n + 1) s t ∧ Spec.CursorsMoved s t (n + 1) (n + 1))) ∧
  (∀ s t : State, s.status.err = false → exec .encrypt s = .next t → t.status.err = true →
    (∃ F ∈ mayRaise .encrypt, EndsFaulted F s t) ∧ SameSetup s t ∧ t.status.pvalid = s.status.pvalid ∧
    t.regs.reclen = 0 ∧ t.regs.att ≤ s.regs.maxatt ∧
    t.regs = { s.regs with
      errcode := t.regs.errcode, reclen := 0, att := t.regs.att, rngpos := t.regs.rngpos } ∧
    t.f = s.f ∧ t.pt = s.pt ∧ t.flags = s.flags ∧ ClearedAt s t 0x3000000 s.cfg.recCap)

/-- R245: DECRYPT completes when its checks pass, C1 is on the curve, S is finite and the recomputed digest is the tag:
the message stored, MSGLEN, and that it changes nothing else. -/
def Obligations.DecryptStoresTheMessage : Prop :=
  ∀ (s : State) (r : Record),
    let D := s.cfg.digestLen s.hsel
    let H := Ports.free.hash s.hsel D
    let S := s.scalarMul s.keys.d ⟨r.x1, r.y1, 1⟩
    let x2 := i2osp (s.affine S).1 s.cfg.flen
    let y2 := i2osp (s.affine S).2 s.cfg.flen
    let M := xorBytes r.body (Spec.keystream H D (x2 ++ y2) r.body.length)
    MemoryInv s → s.status.pvalid = true → s.hsel < s.cfg.nhash → 1 ≤ s.keys.d → s.keys.d < s.params.n →
    s.regs.reclen.toNat ≤ s.cfg.recCap →
    decodeRecord s.cfg.flen ((List.range s.regs.reclen.toNat).map fun i => s.mem.read (0x3000000 + i)) D
      s.ctrl.noempty = some r →
    r.body.length ≤ s.regs.outcap.toNat → r.body.length ≤ s.cfg.msgCap →
    s.isOnCurve r.x1 r.y1 = true → S.z ≠ 0 → H (x2 ++ M ++ y2) = r.tag →
    M.length = r.body.length ∧
    ∃ t, exec .decrypt s = .next t ∧ t.regs.msglen.toNat = r.body.length ∧
      StoreResult s t 0x1000000 M { s.regs with msglen := t.regs.msglen }

/-- R245, R247, R263: the checks of DECRYPT in their order, each with its fault: the key check before anything is asked of
REC, the framing before OUTCAP, OUTCAP before the integers. R246, R270: the three causes then end alike, in the one state
described, which does not name the cause. And every fault of DECRYPT clears all of MSG and MSGLEN and is one of those R263
lists, so never InvalidCurvePoint or PointAtInfinity. -/
def Obligations.DecryptFaultsAlikeAndClearsTheMessage : Prop :=
  (∀ s : State,
    let D := s.cfg.digestLen s.hsel
    let buf := (List.range s.regs.reclen.toNat).map fun i => s.mem.read (0x3000000 + i)
    let fails : CmdFault → Prop := fun F => ∃ t, exec .decrypt s = .next t ∧ DecryptFails F s t
    (s.status.pvalid = false → fails .paramsNotReady) ∧
    (s.status.pvalid = true → s.hsel ≥ s.cfg.nhash → fails .badParam) ∧
    (s.status.pvalid = true → s.hsel < s.cfg.nhash → ¬(1 ≤ s.keys.d ∧ s.keys.d ≤ s.params.n - 1) →
      fails .invalidScalar) ∧
    (s.status.pvalid = true → s.hsel < s.cfg.nhash → 1 ≤ s.keys.d → s.keys.d < s.params.n →
      (s.regs.reclen.toNat > s.cfg.recCap → fails .invalidLength) ∧
      (s.regs.reclen.toNat ≤ s.cfg.recCap →
        (plainLen buf D s.ctrl.noempty = none → fails .invalidEncoding) ∧
        (∀ L, plainLen buf D s.ctrl.noempty = some L →
          (s.regs.outcap.toNat < L → fails .bufferTooSmall) ∧
          (L ≤ s.regs.outcap.toNat → L > s.cfg.msgCap → fails .invalidLength) ∧
          (s.cfg.Legal → L ≤ s.regs.outcap.toNat → L ≤ s.cfg.msgCap →
            decodeRecord s.cfg.flen buf D s.ctrl.noempty = none → fails .invalidEncoding))))) ∧
  (∀ (s : State) (r : Record),
    let D := s.cfg.digestLen s.hsel
    let H := Ports.free.hash s.hsel D
    let S := s.scalarMul s.keys.d ⟨r.x1, r.y1, 1⟩
    let x2 := i2osp (s.affine S).1 s.cfg.flen
    let y2 := i2osp (s.affine S).2 s.cfg.flen
    let M := xorBytes r.body (Spec.keystream H D (x2 ++ y2) r.body.length)
    s.cfg.Legal → s.status.pvalid = true → s.hsel < s.cfg.nhash → 1 ≤ s.keys.d → s.keys.d < s.params.n →
    s.regs.reclen.toNat ≤ s.cfg.recCap →
    decodeRecord s.cfg.flen ((List.range s.regs.reclen.toNat).map fun i => s.mem.read (0x3000000 + i)) D
      s.ctrl.noempty = some r →
    r.body.length ≤ s.regs.outcap.toNat → r.body.length ≤ s.cfg.msgCap →
    (s.isOnCurve r.x1 r.y1 = false ∨ S.z = 0 ∨ H (x2 ++ M ++ y2) ≠ r.tag) →
    ∃ t, exec .decrypt s = .next t ∧ DecryptFails .authenticationFailed s t) ∧
  (∀ s t : State, s.status.err = false → exec .decrypt s = .next t → t.status.err = true →
    ∃ F ∈ mayRaise .decrypt, F ≠ .invalidCurvePoint ∧ F ≠ .pointAtInfinity ∧ DecryptFails F s t)

/-! ## Encoding and stepping -/

/-- R100 to R104: decoding the word of a command gives the command back, with every operand at every value. -/
def Obligations.DecodeOfEncodeIsTheCommand : Prop :=
  ∀ i : Instr, i.wellFormed = true → decode (encode i) = .ok i

/-- R103, R104: a word decodes to at most one command, and only the command's own word decodes to it: no bit is ignored. -/
def Obligations.OnlyTheCommandsWordDecodes : Prop :=
  ∀ (w : Word) (i : Instr), decode w = .ok i → encode i = w ∧ i.wellFormed = true

/-- The words of R106's examples decode to the commands they stand for. -/
def Obligations.ExampleWordsOfTheSpecDecode : Prop :=
  decode 0x00000000 = .ok .nop ∧ decode 0x01000000 = .ok .setup ∧
  decode 0x12312000 = .ok (.modmul 3 1 2) ∧ decode 0x13430000 = .ok (.modsqr 4 3) ∧
  decode 0x19056000 = .ok (.cmp 5 6) ∧ decode 0x1B1000C8 = .ok (.ldi 1 200) ∧
  decode 0x21210000 = .ok (.padd 2 1 0) ∧ decode 0x2A221000 = .ok (.pget 2 2 .y) ∧
  decode 0x30301000 = .ok (.pmul 3 0 1) ∧ decode 0x50012000 = .ok (.renc 1 2) ∧
  decode 0x51120000 = .ok (.rdec 1 2) ∧ decode 0x60000000 = .ok .encrypt

/-- R103, R104, R105: a word is a command exactly when it selects a row of the opcode table; 219 opcodes are unassigned;
and an illegal word, when it runs, does nothing but fault IllegalCommand, whether the core moves because a turn says so or
because no turn is left. -/
def Obligations.IllegalWordsOnlyFault : Prop :=
  (∀ w : Word, (∃ i, decode w = .ok i) ↔ ∃ r ∈ Spec.opcodeTable, r.selects w = true) ∧
  ((List.range 256).filter fun b => (Opcode.ofCode (BitVec.ofNat 8 b)).isNone).length = 219 ∧
  (∀ (s : State) (e : DecodeError), s.status.busy = true → decode s.scratch.cmd = .error e →
    (s.turns = [] → ∃ t, step s = .next t ∧ FaultsWith .illegalCommand s t) ∧
    (∀ rest, s.turns = .core :: rest →
      ∃ t, step s = .next t ∧ FaultsWith .illegalCommand { s with turns := rest } t))

/-- R9, R27: when the core moves, a step runs the accepted command, as one transition; and the state the host builds to
run a word runs exactly that word's command, as if the word had been accepted. -/
def Obligations.StepRunsTheAcceptedCommand : Prop :=
  (∀ (s : State) (i : Instr), s.status.busy = true → decode s.scratch.cmd = .ok i →
    (s.turns = [] → step s = exec i s) ∧
    (∀ rest, s.turns = .core :: rest → step s = exec i { s with turns := rest })) ∧
  (∀ (s : State) (i : Instr), i.wellFormed = true →
    step (s.withFetchWord 32 (encode i).toNat) = exec i (s.acceptWord (encode i)) ∧
    (s.acceptWord (encode i)).scratch.cmd = encode i ∧ (s.acceptWord (encode i)).status.busy = true)

/-! ## Invariants of every step -/

/-- R6, R23, R24: every step keeps the register widths and R23's invariant, in a legal configuration. -/
def Obligations.NumbersInvariantIsKept : Prop :=
  ∀ s t : State, NumbersInv s → step s = .next t → NumbersInv t

/-- R72, R80: every step keeps the memory in its canonical form and stores nothing outside the buffers. -/
def Obligations.MemoryInvariantIsKept : Prop :=
  ∀ s t : State, MemoryInv s → step s = .next t → MemoryInv t

/-- R27, R46: after every step PHASE is IDLE and the hidden scratch is zero whenever BUSY = 0. -/
def Obligations.IdleScratchStaysZero : Prop :=
  ∀ s t : State, IdleInv s → step s = .next t → IdleInv t

/-- R33, R261, R266: every step keeps ERRCODE in step with ERR and runs no command while ERR = 1. -/
def Obligations.FaultStatusInvariantIsKept : Prop :=
  ∀ s t : State, FaultInv s → step s = .next t → FaultInv t

/-- R42, R275: every step keeps the test cursors within RNGBUF, and the test source away when TEST_EN = 0. -/
def Obligations.TestSourceInvariantIsKept : Prop :=
  ∀ s t : State, TestSourceInv s → step s = .next t → TestSourceInv t

/-- R48, R290, R291: a reset, while a command runs too, leaves every register, flag and buffer byte 0 but MAXATT = 16, and
keeps the configuration; after it (and in `State.reset`, the reference configuration) every invariant holds. The schedule
and the production source, which lie outside the block, go on: that `turns` stays (log 2) and that `freeCtr` takes over the
requests an abandoned ENCRYPT has walked past (log 5) is the model's choice. -/
def Obligations.InvariantsHoldAfterReset : Prop :=
  (∀ (s : State) (rest : List Turn), s.turns = .host .reset :: rest → s.cfg.Legal →
    ∃ t, step s = .next t ∧
      (∀ r : WideReg, r.get t = 0) ∧ t.params.cof = 0 ∧ t.consts.pinv0 = 0 ∧
      t.flags = ⟨false, false, false, false⟩ ∧ t.status = ⟨false, false, false, false, false⟩ ∧
      t.ctrl = ⟨false, false, 0, false, false⟩ ∧
      t.regs = ⟨0, 16, 0, 0, 0, 0, 0, 0, 0, 0, 0⟩ ∧ t.phase = .idle ∧ t.scratch = .zero ∧
      (∀ a, t.mem.read a = 0) ∧ t.cfg = s.cfg ∧ t.irq = false ∧ t.turns = rest ∧
      t.freeCtr = max s.freeCtr s.scratch.freeCtr ∧
      NumbersInv t ∧ MemoryInv t ∧ IdleInv t ∧ FaultInv t ∧ TestSourceInv t) ∧
  NumbersInv State.reset ∧ MemoryInv State.reset ∧ IdleInv State.reset ∧ FaultInv State.reset ∧
  TestSourceInv State.reset

/-! ## Datapaths and formulas -/

/-- R135: the digit-serial loop gives the residue t with t · 2^W ≡ a · b (mod p), for any digit width, and its accumulator
stays below p + b. -/
def Obligations.MontgomeryLoopReduces : Prop :=
  ∀ w n p pinv a b : Nat, 1 ≤ w → 0 < p → (p * pinv + 1) % 2 ^ w = 0 → a < p → b < p → p < 2 ^ (w * n) →
    montMul w n p pinv a b < p ∧
    montMul w n p pinv a b * 2 ^ (w * n) % p = a * b % p ∧
    ∀ i, montAcc w p pinv a b i < p + b

/-- R141: BarrettReduce is reduction modulo p for every double-width value, and its estimate is never too large and too
small by at most 2. -/
def Obligations.BarrettReduceIsExact : Prop :=
  ∀ W p mu x : Nat, 1 ≤ W → 2 ^ (W - 1) < p → p < 2 ^ W → 2 ^ W + mu = 2 ^ (2 * W) / p → x < 2 ^ (2 * W) →
    barrettReduce W p mu x = x % p ∧
    (let q3 := x / 2 ^ (W - 1) * (2 ^ W + mu) / 2 ^ (W + 1)
     q3 ≤ x / p ∧ x / p ≤ q3 + 2)

/-- R143: FermatInv is a^(p−2) mod p for any modulus, and the inverse when p is prime. -/
def Obligations.FermatInvIsThePower : Prop :=
  ∀ W p a : Nat, 2 ≤ p → p < 2 ^ W → 1 ≤ a → a < p →
    fermatInv W p a = a ^ (p - 2) % p ∧ (p.Prime → a * fermatInv W p a % p = 1)

/-- R181, R25 (their affine content): over a prime p above 3 the doubling of a finite triple with Y ≠ 0 is the tangent
construction on the affine points the triples stand for, and the addition of two finite triples with different affine x is
the chord construction. -/
def Obligations.JacobianFormulasAreTangentAndChord : Prop :=
  ∀ (p a : Nat) (T U : Triple), p.Prime → 3 < p →
    let X : Triple → ZMod p := fun V => (V.x : ZMod p) * ((V.z : ZMod p) ^ 2)⁻¹
    let Y : Triple → ZMod p := fun V => (V.y : ZMod p) * ((V.z : ZMod p) ^ 3)⁻¹
    (T.x < p → T.y < p → T.z < p → T.z ≠ 0 → T.y ≠ 0 →
      let V := jdbl p a T
      let l := (3 * X T ^ 2 + (a : ZMod p)) * (2 * Y T)⁻¹
      V.z ≠ 0 ∧ X V = l ^ 2 - 2 * X T ∧ Y V = l * (X T - X V) - Y T) ∧
    (T.x < p → T.y < p → T.z < p → T.z ≠ 0 → U.x < p → U.y < p → U.z < p → U.z ≠ 0 → X T ≠ X U →
      let V := jadd p a T U
      let l := (Y U - Y T) * (X U - X T)⁻¹
      V.z ≠ 0 ∧ X V = l ^ 2 - X T - X U ∧ Y V = l * (X T - X V) - Y T)

/-! ## The codec and the KDF as functions -/

/-- R200 to R205: the bytes of a record, the container 30 around 02 x1, 02 y1, 04 tag, 04 body in that order, each with the
shortest length bytes, and each integer in its shortest content of at most FLEN + 1 bytes; and R213, first law: decoding an
encoded record gives its four fields back. -/
def Obligations.EncodedRecordHasItsLayoutAndDecodes : Prop :=
  ∀ (F x1 y1 : Nat) (tag body : List Byte), 1 ≤ F → F ≤ 64 → x1 < 256 ^ F → y1 < 256 ^ F → tag.length ≤ 64 →
    body.length < 2 ^ 24 →
    (∃ X Y lx ly lt lb lc : List Byte,
      let c := [0x02] ++ lx ++ X ++ [0x02] ++ ly ++ Y ++ [0x04] ++ lt ++ tag ++ [0x04] ++ lb ++ body
      Spec.IsInteger x1 X ∧ X.length ≤ F + 1 ∧ Spec.IsInteger y1 Y ∧ Y.length ≤ F + 1 ∧
      Spec.IsLength X.length lx ∧ Spec.IsLength Y.length ly ∧ Spec.IsLength tag.length lt ∧
      Spec.IsLength body.length lb ∧ Spec.IsLength c.length lc ∧
      encodeRecord F x1 y1 tag body = [0x30] ++ lc ++ c) ∧
    decodeRecord F (encodeRecord F x1 y1 tag body) tag.length false = some ⟨x1, y1, tag, body⟩ ∧
    plainLen (encodeRecord F x1 y1 tag body) tag.length false = some body.length

/-- R213, second law: the accepted records are exactly the outputs of Encode: every accepted byte string is the encoding
of the fields it decodes to. R210, R211: PlainLen accepts exactly the byte strings framed as a record, each length in its
shortest form and nothing left over, whatever the integers hold, and answers the body's length. -/
def Obligations.AcceptedRecordsAreCanonical : Prop :=
  (∀ (F D : Nat) (ne : Bool) (buf : List Byte) (r : Record), 1 ≤ F → decodeRecord F buf D ne = some r →
    encodeRecord F r.x1 r.y1 r.tag r.body = buf ∧ r.tag.length = D ∧ r.x1 < 256 ^ F ∧ r.y1 < 256 ^ F ∧
    (ne = true → r.body ≠ [])) ∧
  (∀ (D L : Nat) (ne : Bool) (buf : List Byte), plainLen buf D ne = some L ↔
    ∃ X Y tag body lx ly lt lb lc : List Byte,
      let c := [0x02] ++ lx ++ X ++ [0x02] ++ ly ++ Y ++ [0x04] ++ lt ++ tag ++ [0x04] ++ lb ++ body
      Spec.IsLength X.length lx ∧ Spec.IsLength Y.length ly ∧ Spec.IsLength tag.length lt ∧
      Spec.IsLength body.length lb ∧ Spec.IsLength c.length lc ∧ buf = [0x30] ++ lc ++ c ∧
      tag.length = D ∧ body.length = L ∧ (ne = true → L ≠ 0))

/-- R208, R206: no record is longer than WCS, and it is as long exactly when both coordinates have their top bit set. -/
def Obligations.RecordSizeIsBoundedByWcs : Prop :=
  ∀ (F x1 y1 : Nat) (tag body : List Byte), 1 ≤ F → x1 < 256 ^ F → y1 < 256 ^ F →
    (encodeRecord F x1 y1 tag body).length ≤ wcs F tag.length body.length ∧
    ((encodeRecord F x1 y1 tag body).length = wcs F tag.length body.length ↔
      256 ^ F ≤ 2 * x1 ∧ 256 ^ F ≤ 2 * y1)

/-- R190, R194: the keystream has exactly L bytes, byte i comes from request number 1 + i / D, and a shorter keystream is a
prefix of a longer one. -/
def Obligations.KdfIsThePrefixOfItsRequests : Prop :=
  ∀ (H : List Byte → List Byte) (D : Nat) (seed : List Byte), 1 ≤ D → (∀ m, (H m).length = D) →
    ∀ L, kdf H seed L = Spec.keystream H D seed L ∧ (kdf H seed L).length = L ∧
      ∀ L', L ≤ L' → kdf H seed L = (kdf H seed L').take L

/-! ## The sequencer comes to what the commands mean -/

/-- R250 against R235: walking ENCRYPT's phases from acceptance reaches E_WIPE, and what E_WIPE makes of the scratch is
what the command's meaning gives, for all ports. -/
def Obligations.EncryptPhasesReachItsMeaning : Prop :=
  ∀ (P : Ports) (s : State) (w : Word), P.Lawful → s.cfg.Legal → decode w = .ok .encrypt →
    ∃ n, (seqRun P n (s.acceptWord w)).phase = .eWipe ∧
      seqFinish (seqRun P n (s.acceptWord w)) = encryptWith P (s.acceptWord w)

/-- R251 against R245: the same for DECRYPT and D_WIPE. -/
def Obligations.DecryptPhasesReachItsMeaning : Prop :=
  ∀ (P : Ports) (s : State) (w : Word), P.Lawful → s.cfg.Legal → decode w = .ok .decrypt →
    ∃ n, (seqRun P n (s.acceptWord w)).phase = .dWipe ∧
      seqFinish (seqRun P n (s.acceptWord w)) = decryptWith P (s.acceptWord w)

/-- R192 against R190, R191: the KDF machine's loop comes to the command's meaning. -/
def Obligations.KdfPhasesReachItsMeaning : Prop :=
  ∀ (P : Ports) (s : State) (w : Word), P.Lawful → s.cfg.Legal → decode w = .ok .kdf →
    ∃ n, seqAtEnd (seqRun P n (s.acceptWord w)) = true ∧
      seqFinish (seqRun P n (s.acceptWord w)) = kdfWith P (s.acceptWord w)

/-! ## Protocol and secrecy -/

/-- R254(a): if ENCRYPT completes without fault, then DECRYPT, run with the same parameters, hash, NOEMPTY and record,
gives the message back, for all ports. What the group law gives is the premise `Spec.SharedPointAgrees`. -/
def Obligations.DecryptInvertsEncrypt : Prop :=
  (∀ s : State, exec .encrypt s = .next (encryptWith .free s) ∧ exec .decrypt s = .next (decryptWith .free s)) ∧
  ∀ (P : Ports) (s u : State), P.Lawful → NumbersInv s → MemoryInv s → MemoryInv u → s.status.err = false →
    (encryptWith P s).status.err = false →
    u.cfg = s.cfg → u.params = s.params → u.ctrl.hsel = s.ctrl.hsel → u.ctrl.noempty = s.ctrl.noempty →
    u.status.pvalid = true → u.regs.reclen = (encryptWith P s).regs.reclen →
    (∀ i, i < u.regs.reclen.toNat → u.mem.read (0x3000000 + i) = (encryptWith P s).mem.read (0x3000000 + i)) →
    1 ≤ u.keys.d → u.keys.d < u.params.n → s.regs.msglen.toNat ≤ u.regs.outcap.toNat →
    Spec.SharedPointAgrees s u.keys.d →
    EndsOk u (decryptWith P u) ∧ (decryptWith P u).regs.msglen = s.regs.msglen ∧
    ∀ i, i < s.regs.msglen.toNat → (decryptWith P u).mem.read (0x1000000 + i) = s.mem.read (0x1000000 + i)

/-- R22: D cannot be read: two states that differ only in D make the same step, reads of the bus included, to states that
differ only in D, as long as the running command is not DECRYPT. -/
def Obligations.PrivateScalarLeaksOnlyThroughDecrypt : Prop :=
  ∀ s s' t : State, SameButD s s' → (s.status.busy = true → decode s.scratch.cmd ≠ .ok .decrypt) →
    step s = .next t → ∃ t', step s' = .next t' ∧ SameButD t t'

/-! ## The bus -/

/-- R31: CMD reads 0; a write is accepted when BUSY = 0 and ERR = 0, and dropped otherwise. -/
def Obligations.CmdWritesAreAcceptedOrDropped : Prop :=
  ∀ (s : State) (w : Word) (rest : List Turn),
    (s.turns = .host (.write 0x008 4 w) :: rest → s.status.busy = false → s.status.err = false →
      ∃ t, step s = .next t ∧ t.status = { s.status with busy := true, done := false } ∧ t.scratch.cmd = w ∧
        t.phase = (match decode w with
          | .ok .encrypt => .eCheck | .ok .decrypt => .dCheck | .ok .kdf => .kInit | _ => .exec) ∧
        t = { s with turns := rest, status := t.status, phase := t.phase
                     scratch := { Scratch.zero with cmd := w } }) ∧
    (s.turns = .host (.write 0x008 4 w) :: rest → (s.status.busy = true ∨ s.status.err = true) →
      ∃ t, step s = .next t ∧ t = { s with turns := rest, status := { s.status with drop := true } }) ∧
    (s.turns = .host (.read 0x008 4) :: rest → ∃ t, step s = .next t ∧ t = { s with turns := rest, reply := 0 })

/-- R32, R265, R268: a write to STATUS clears each of DONE, ERR, DROP whose written bit is 1 and changes nothing else but
ERRCODE, which clearing ERR sets to 0; and irq is the stated function of the state. -/
def Obligations.StatusWriteAcknowledges : Prop :=
  ∀ (s : State) (v : Word) (rest : List Turn), s.turns = .host (.write 0x00C 4 v) :: rest →
    ∃ t, step s = .next t ∧
      t.status = { s.status with
        done := if v.getLsbD 1 then false else s.status.done
        err := if v.getLsbD 2 then false else s.status.err
        drop := if v.getLsbD 3 then false else s.status.drop } ∧
      t.regs = { s.regs with errcode := if v.getLsbD 2 then 0 else s.regs.errcode } ∧
      t = { s with turns := rest, status := t.status, regs := t.regs } ∧
      (t.irq = true ↔ (t.status.done = true ∧ t.ctrl.ieDone = true) ∨ (t.status.err = true ∧ t.ctrl.ieErr = true))

/-- R79, R78: what the host can do while a command runs, with the bits of CONFIG (R30) and STATUS (R32, R28), and what
becomes of an access that is not an aligned word. That an access of another width than 4 bytes ends like a misaligned one is
the model's reading of R78 (log 14). -/
def Obligations.BusyAndMisalignedAccessesAreRefused : Prop :=
  ∀ (s : State) (addr v : Word) (n : Nat) (rest : List Turn),
    (s.turns = .host (.read addr 4) :: rest → s.status.busy = true → addr.toNat % 4 = 0 →
      ∃ t, step s = .next t ∧ t = { s with turns := rest, reply := t.reply } ∧
        (addr = 0x000 → t.reply = 0x534D3243) ∧
        (addr = 0x004 → s.cfg.Legal → Spec.ConfigBits s.cfg t.reply) ∧
        (addr = 0x00C → Spec.StatusBits s t.reply) ∧
        (addr = 0x010 → t.reply.toNat = s.regs.errcode.toNat) ∧
        (addr = 0x040 → t.reply.toNat = s.phase.code.toNat) ∧
        (addr ≠ 0x000 → addr ≠ 0x004 → addr ≠ 0x00C → addr ≠ 0x010 → addr ≠ 0x040 → t.reply = 0)) ∧
    (s.turns = .host (.write addr 4 v) :: rest → s.status.busy = true → addr.toNat % 4 = 0 →
      ∃ t, step s = .next t ∧
        (addr ≠ 0x00C → t = { s with turns := rest, status := { s.status with drop := true } }) ∧
        (addr = 0x00C → t = { s with turns := rest, status := t.status, regs := t.regs } ∧
          t.status = { s.status with done := s.status.done && !v.getLsbD 1, err := s.status.err && !v.getLsbD 2
                                     drop := s.status.drop && !v.getLsbD 3 } ∧
          t.regs = { s.regs with errcode := if v.getLsbD 2 then 0 else s.regs.errcode })) ∧
    ((addr.toNat % 4 ≠ 0 ∨ n ≠ 4) →
      (s.turns = .host (.read addr n) :: rest →
        ∃ t, step s = .next t ∧ t = { s with turns := rest, reply := 0, status := { s.status with drop := true } }) ∧
      (s.turns = .host (.write addr n v) :: rest →
        ∃ t, step s = .next t ∧ t = { s with turns := rest, status := { s.status with drop := true } }))

/-- R76, R22, R26, R71, R75, R29 to R44: an aligned read changes nothing but the word it returns. Any word of D reads 0. An
idle read from 0x100 on returns in each byte lane what the map puts at that byte: 0 at every reserved or undecoded address,
a byte of the big-endian image of a wide register but D, a byte of a buffer. An idle read below 0x100 returns the control
register there, CONFIG, STATUS and CTRL bit by bit, and 0 at CMD and the reserved addresses. -/
def Obligations.ReadsHaveNoSideEffect : Prop :=
  ∀ (s : State) (addr : Word) (rest : List Turn), s.turns = .host (.read addr 4) :: rest → addr.toNat % 4 = 0 →
    ∃ t, step s = .next t ∧ t = { s with turns := rest, reply := t.reply } ∧
      (0x300 ≤ addr.toNat ∧ addr.toNat < 0x340 → t.reply = 0) ∧
      (s.cfg.Legal → s.status.busy = false → 0x100 ≤ addr.toNat → ∀ j, j < 4 →
        (Spec.Reserved s.cfg (addr.toNat + j) → Spec.lane t.reply j = 0) ∧
        (∀ (r : WideReg) (o : Nat), r ≠ .d → o < s.cfg.flen → addr.toNat + j = Spec.slotBase r + o →
          Spec.lane t.reply j = Spec.regByte s.cfg.flen (r.get s) o) ∧
        (Spec.Buffered s.cfg (addr.toNat + j) → Spec.lane t.reply j = (s.mem.read (addr.toNat + j)).toNat)) ∧
      (s.status.busy = false →
        (addr = 0x000 → t.reply = 0x534D3243) ∧
        (addr = 0x004 → s.cfg.Legal → Spec.ConfigBits s.cfg t.reply) ∧
        (addr = 0x008 → t.reply = 0) ∧
        (addr = 0x00C → Spec.StatusBits s t.reply) ∧
        (addr = 0x010 → t.reply.toNat = s.regs.errcode.toNat) ∧
        (addr = 0x014 → Spec.CtrlBits s t.reply) ∧
        (addr = 0x018 → t.reply.toNat = s.regs.maxatt.toNat) ∧
        (addr = 0x01C → t.reply.toNat = s.regs.att.toNat) ∧
        (addr = 0x020 → t.reply = s.regs.msglen) ∧
        (addr = 0x024 → t.reply = s.regs.reclen) ∧
        (addr = 0x028 → t.reply = s.regs.outcap) ∧
        (addr = 0x02C → t.reply = s.regs.result) ∧
        (addr = 0x030 → t.reply.toNat = s.regs.seedlen.toNat) ∧
        (addr = 0x034 → t.reply = s.regs.kslen) ∧
        (addr = 0x038 → t.reply.toNat = if s.cfg.testEn then s.regs.rnglen.toNat else 0) ∧
        (addr = 0x03C → t.reply.toNat = if s.cfg.testEn then s.regs.rngpos.toNat else 0) ∧
        (addr = 0x040 → t.reply.toNat = s.phase.code.toNat) ∧
        (addr = 0x044 → t.reply = s.params.cof) ∧
        (addr = 0x048 → t.reply = s.consts.pinv0) ∧
        (0x04C ≤ addr.toNat → addr.toNat < 0x100 → t.reply = 0))

/-- R26, R71, R72, R75, R77: an idle word write from 0x100 on stores byte lane by byte lane: into the bytes of the image of
the wide register there (RR and MU ignore it; lanes beyond FLEN are ignored, so the last word of a register whose FLEN is no
multiple of 4 stores its upper lanes only), into the bytes of a buffer within its capacity, and nowhere else. For W a
multiple of 32 the word at slot offset 4 m replaces exactly the bits [W−1−32m : W−32−32m] of the value, and reads back but
for D. -/
def Obligations.RegisterAndBufferWritesStoreTheirBytes : Prop :=
  (∀ (s : State) (addr v : Word) (rest : List Turn), MemoryInv s → s.status.busy = false → addr.toNat % 4 = 0 →
    0x100 ≤ addr.toNat → s.turns = .host (.write addr 4 v) :: rest →
    ∃ t, step s = .next t ∧
      (∀ r : WideReg, r.get t / 256 ^ s.cfg.flen = r.get s / 256 ^ s.cfg.flen ∧ ∀ o, o < s.cfg.flen →
        Spec.regByte s.cfg.flen (r.get t) o =
          if r ≠ .rr ∧ r ≠ .mu ∧ addr.toNat ≤ Spec.slotBase r + o ∧ Spec.slotBase r + o < addr.toNat + 4
          then Spec.lane v (Spec.slotBase r + o - addr.toNat) else Spec.regByte s.cfg.flen (r.get s) o) ∧
      (∀ j, j < 4 → Spec.Buffered s.cfg (addr.toNat + j) → (t.mem.read (addr.toNat + j)).toNat = Spec.lane v j) ∧
      (∀ a, ¬(addr.toNat ≤ a ∧ a < addr.toNat + 4 ∧ Spec.Buffered s.cfg a) → t.mem.read a = s.mem.read a) ∧
      t.params.cof = s.params.cof ∧ t.consts = s.consts ∧
      t.status = { s.status with pvalid := t.status.pvalid } ∧
      t = { s with turns := rest, params := t.params, keys := t.keys, f := t.f, pt := t.pt, mem := t.mem
                   status := t.status }) ∧
  (∀ (s : State) (r : WideReg) (m : Nat) (v : Word) (rest : List Turn), s.cfg.Legal → s.cfg.fieldBits % 32 = 0 →
    32 * m + 32 ≤ s.cfg.fieldBits → s.status.busy = false → r ≠ .rr → r ≠ .mu →
    s.turns = .host (.write (BitVec.ofNat 32 (Spec.slotBase r + 4 * m)) 4 v) :: rest →
    let lo := s.cfg.fieldBits - 32 - 32 * m
    ∃ t, step s = .next t ∧
      r.get t = r.get s / 2 ^ (lo + 32) * 2 ^ (lo + 32) + v.toNat * 2 ^ lo + r.get s % 2 ^ lo ∧
      (∀ q : WideReg, q ≠ r → q.get t = q.get s) ∧ t.mem = s.mem ∧
      (r ≠ .d → t.readIdle (Spec.slotBase r + 4 * m) = v))

/-- R34 to R44: an idle word write below 0x100, but to CMD and STATUS, stores the bits of the control register there and
nothing else; RNGLEN and RNGPOS saturate at 256, CTRL.TESTRNG, RNGLEN and RNGPOS ignore it with TEST_EN = 0, and the
read-only and reserved addresses ignore it. R23, R77, R294: an idle word write clears PVALID exactly when it is to a word of
P, A, B, GX or GY; it leaves the constants and the point registers' and field registers' contents, and a write elsewhere
leaves PVALID. Which words of a slot are the register's (those that hold its bytes) is log 8. -/
def Obligations.ControlAndParameterWritesTakeEffect : Prop :=
  ∀ (s : State) (addr v : Word) (rest : List Turn), s.turns = .host (.write addr 4 v) :: rest →
    addr.toNat % 4 = 0 → s.status.busy = false →
    ∃ t, step s = .next t ∧
      (addr.toNat < 0x100 → addr ≠ 0x008 → addr ≠ 0x00C →
        t = { s with turns := rest, ctrl := t.ctrl, regs := t.regs
                     params := { s.params with cof := if addr = 0x044 then v else s.params.cof } } ∧
        (addr ≠ 0x014 → t.ctrl = s.ctrl) ∧
        (addr = 0x014 → t.ctrl.ieDone = v.getLsbD 0 ∧ t.ctrl.ieErr = v.getLsbD 1 ∧
          t.ctrl.hsel.toNat = v.toNat / 2 ^ 4 % 4 ∧ t.ctrl.noempty = v.getLsbD 8 ∧
          t.ctrl.testrng = if s.cfg.testEn then v.getLsbD 12 else s.ctrl.testrng) ∧
        t.regs = { s.regs with
          maxatt := if addr = 0x018 then v.setWidth 8 else s.regs.maxatt
          msglen := if addr = 0x020 then v else s.regs.msglen
          reclen := if addr = 0x024 then v else s.regs.reclen
          outcap := if addr = 0x028 then v else s.regs.outcap
          seedlen := if addr = 0x030 then v.setWidth 8 else s.regs.seedlen
          kslen := if addr = 0x034 then v else s.regs.kslen
          rnglen := if addr = 0x038 ∧ s.cfg.testEn = true then BitVec.ofNat 9 (min v.toNat 256) else s.regs.rnglen
          rngpos := if addr = 0x03C ∧ s.cfg.testEn = true then BitVec.ofNat 9 (min v.toNat 256)
                    else s.regs.rngpos }) ∧
      (0x100 ≤ addr.toNat ∧ addr.toNat < 0x240 ∧ addr.toNat % 64 < s.cfg.flen →
        t.status.pvalid = false ∧ t.consts = s.consts ∧ t.f = s.f ∧ t.pt = s.pt ∧ t.keys = s.keys ∧
        t.mem = s.mem ∧ t.params.n = s.params.n) ∧
      (¬(0x100 ≤ addr.toNat ∧ addr.toNat < 0x240 ∧ addr.toNat % 64 < s.cfg.flen) →
        t.status.pvalid = s.status.pvalid) ∧
      t.consts = s.consts

/-! ## Rules about the whole machine -/

/-- R28, R21, R22, R23, R36, R40, R72, R81: which commands write what. No command writes a parameter register, QX, QY, CTRL,
MAXATT or OUTCAP; only ZEROIZE writes D; only SETUP the constants; only ENCRYPT ATT; only CTSIZE and PTSIZE RESULT; only
CMP, PEQ, PISINF and ONC a flag, and not when they fault; and a buffer only the commands R72's table names, within its
capacity. -/
def Obligations.CommandsWriteOnlyWhatTheRulesName : Prop :=
  ∀ (i : Instr) (s t : State), s.cfg.Legal → s.status.err = false → exec i s = .next t →
    (writesFlags i = false ∨ t.status.err = true → t.flags = s.flags) ∧
    t.params = s.params ∧ t.keys.qx = s.keys.qx ∧ t.keys.qy = s.keys.qy ∧ t.ctrl = s.ctrl ∧
    t.regs.maxatt = s.regs.maxatt ∧ t.regs.outcap = s.regs.outcap ∧
    (i ≠ .zeroize → t.keys.d = s.keys.d) ∧
    (i ≠ .setup → t.consts = s.consts ∧ t.status.pvalid = s.status.pvalid) ∧
    (i ≠ .encrypt → t.regs.att = s.regs.att) ∧
    (i ≠ .ctsize → i ≠ .ptsize → t.regs.result = s.regs.result) ∧
    (∀ b : Buffer, writesBuffer i b = false →
      ∀ a, b.base ≤ a → a < b.base + b.cap s.cfg → t.mem.read a = s.mem.read a) ∧
    (∀ a, (∀ b : Buffer, ¬(b.base ≤ a ∧ a < b.base + b.cap s.cfg)) → t.mem.read a = s.mem.read a)

/-- R108: the commands of (a) fault ParamsNotReady before anything else when PVALID = 0, and those of (b) fault BadParam
next, when CTRL.HSEL ≥ NHASH; the commands not listed in (a) never fault ParamsNotReady. -/
def Obligations.SharedPreconditionsComeFirst : Prop :=
  ∀ (i : Instr) (s : State), i.wellFormed = true → s.status.err = false →
    (needsPvalid i = true → s.status.pvalid = false →
      ∃ t, exec i s = .next t ∧ EndsFaulted .paramsNotReady s t) ∧
    (needsHash i = true → (needsPvalid i = true → s.status.pvalid = true) → s.hsel ≥ s.cfg.nhash →
      ∃ t, exec i s = .next t ∧ EndsFaulted .badParam s t) ∧
    (needsPvalid i = false → ∃ t, exec i s = .next t ∧ ¬(EndsFaulted .paramsNotReady s t))

/-- R260, R262, R263, R271: every command, from every state, ends idle with DONE set and the hidden scratch and PHASE
zero; and if it faults, the fault is one R263 lists for it. -/
def Obligations.EveryCommandEndsIdleWithAListedFault : Prop :=
  ∀ (i : Instr) (s : State), i.wellFormed = true → s.status.err = false →
    ∃ t, exec i s = .next t ∧ EndsIdle s t ∧
      (t.status.err = false ∧ t.regs.errcode = s.regs.errcode ∨ ∃ F ∈ mayRaise i, EndsFaulted F s t)
end

