-- ==== Sys2Proof/Laws/Bytes.lean ====
section
/-! SUPPORT. The two conversions of 00_scope.md R11 are inverse to each other, and the lengths of byte strings. -/

namespace Sys2Proof.Machine

@[simp] theorem length_i2osp (v n : Nat) : (i2osp v n).length = n := by
  induction n generalizing v with
  | zero => rfl
  | succ n ih => simp [i2osp, ih]

@[simp] theorem length_be32 (c : Nat) : (be32 c).length = 4 := length_i2osp c 4

@[simp] theorem length_xorBytes (s t : List Byte) : (xorBytes s t).length = min s.length t.length := by
  simp [xorBytes]

@[simp] theorem os2ip_nil : os2ip [] = 0 := rfl

theorem os2ip_snoc (s : List Byte) (b : Byte) : os2ip (s ++ [b]) = os2ip s * 256 + b.toNat := by
  simp [os2ip, List.foldl_append]

theorem os2ip_lt (s : List Byte) : os2ip s < 256 ^ s.length := by
  induction s using List.reverseRecOn with
  | nil => simp
  | append_singleton s b ih =>
    rw [os2ip_snoc, List.length_append, List.length_singleton, Nat.pow_succ]
    have := b.isLt
    omega

/-- OS2IP after I2OSP gives the value back, of its low 8·n bits. -/
theorem os2ip_i2osp (v n : Nat) : os2ip (i2osp v n) = v % 256 ^ n := by
  induction n generalizing v with
  | zero => simp [i2osp, Nat.mod_one]
  | succ n ih =>
    rw [i2osp, os2ip_snoc, ih, BitVec.toNat_ofNat, show 256 ^ (n + 1) = 256 * 256 ^ n by ring, Nat.mod_mul]
    omega

/-- I2OSP after OS2IP gives the string back. -/
theorem i2osp_os2ip (s : List Byte) : i2osp (os2ip s) s.length = s := by
  induction s using List.reverseRecOn with
  | nil => rfl
  | append_singleton s b ih =>
    have hb := b.isLt
    have h1 : (os2ip s * 256 + b.toNat) / 256 = os2ip s := by omega
    have h2 : BitVec.ofNat 8 (os2ip s * 256 + b.toNat) = b := by
      apply BitVec.eq_of_toNat_eq
      rw [BitVec.toNat_ofNat]
      omega
    rw [List.length_append, List.length_singleton, os2ip_snoc, i2osp, h1, h2, ih]

/-- A byte XORed twice with the same byte is itself, so XOR with a keystream is undone by the same keystream. -/
theorem xorBytes_cancel (s t : List Byte) (h : s.length ≤ t.length) : xorBytes (xorBytes s t) t = s := by
  induction s generalizing t with
  | nil => simp [xorBytes]
  | cons a s ih =>
    cases t with
    | nil => simp at h
    | cons b t =>
      have := ih t (by simpa using h)
      simp only [xorBytes] at this ⊢
      simp [List.zipWith_cons_cons, this]

end Sys2Proof.Machine
end

