-- ==== Sys2Proof/Laws/Decode.lean ====
section
/-! SUPPORT. The fields of a word built from fields (30_encoding.md R100), and the two facts about words the encoding
statements rest on: masks act field by field, and a word is the concatenation of its fields. -/

namespace Sys2Proof

variable (op op' : BitVec 8) (rd ra rb rd' ra' rb' : BitVec 4) (z z' : BitVec 12) (imm imm' : BitVec 16)

@[simp] theorem fieldOp_wordOf : fieldOp (wordOf op rd ra rb z) = op := by
  ext i hi
  simp only [fieldOp, wordOf, BitVec.getElem_extractLsb', BitVec.getLsbD_append]
  simp [show ¬(24 + i < 12) by omega, show ¬(24 + i - 12 < 4) by omega, show ¬(24 + i - 12 - 4 < 4) by omega,
    show ¬(24 + i - 12 - 4 - 4 < 4) by omega, show 24 + i - 12 - 4 - 4 - 4 = i by omega, BitVec.getLsbD_eq_getElem, hi]

@[simp] theorem fieldRd_wordOf : fieldRd (wordOf op rd ra rb z) = rd := by
  ext i hi
  simp only [fieldRd, wordOf, BitVec.getElem_extractLsb', BitVec.getLsbD_append]
  simp [show ¬(20 + i < 12) by omega, show ¬(20 + i - 12 < 4) by omega, show ¬(20 + i - 12 - 4 < 4) by omega,
    show 20 + i - 12 - 4 - 4 = i by omega, BitVec.getLsbD_eq_getElem, hi]

@[simp] theorem fieldRa_wordOf : fieldRa (wordOf op rd ra rb z) = ra := by
  ext i hi
  simp only [fieldRa, wordOf, BitVec.getElem_extractLsb', BitVec.getLsbD_append]
  simp [show ¬(16 + i < 12) by omega, show ¬(16 + i - 12 < 4) by omega, show 16 + i - 12 - 4 = i by omega,
    BitVec.getLsbD_eq_getElem, hi]

@[simp] theorem fieldRb_wordOf : fieldRb (wordOf op rd ra rb z) = rb := by
  ext i hi
  simp only [fieldRb, wordOf, BitVec.getElem_extractLsb', BitVec.getLsbD_append]
  simp [show ¬(12 + i < 12) by omega, show 12 + i - 12 = i by omega, BitVec.getLsbD_eq_getElem, hi]

@[simp] theorem fieldZ_wordOf : fieldZ (wordOf op rd ra rb z) = z := by
  ext i hi
  simp only [fieldZ, wordOf, BitVec.getElem_extractLsb', BitVec.getLsbD_append]
  simp [hi, BitVec.getLsbD_eq_getElem]

@[simp] theorem fieldOp_wordOfImm : fieldOp (wordOfImm op rd ra imm) = op := by
  ext i hi
  simp only [fieldOp, wordOfImm, BitVec.getElem_extractLsb', BitVec.getLsbD_append]
  simp [show ¬(24 + i < 16) by omega, show ¬(24 + i - 16 < 4) by omega, show ¬(24 + i - 16 - 4 < 4) by omega,
    show 24 + i - 16 - 4 - 4 = i by omega, BitVec.getLsbD_eq_getElem, hi]

@[simp] theorem fieldRd_wordOfImm : fieldRd (wordOfImm op rd ra imm) = rd := by
  ext i hi
  simp only [fieldRd, wordOfImm, BitVec.getElem_extractLsb', BitVec.getLsbD_append]
  simp [show ¬(20 + i < 16) by omega, show ¬(20 + i - 16 < 4) by omega, show 20 + i - 16 - 4 = i by omega,
    BitVec.getLsbD_eq_getElem, hi]

@[simp] theorem fieldRa_wordOfImm : fieldRa (wordOfImm op rd ra imm) = ra := by
  ext i hi
  simp only [fieldRa, wordOfImm, BitVec.getElem_extractLsb', BitVec.getLsbD_append]
  simp [show ¬(16 + i < 16) by omega, show 16 + i - 16 = i by omega, BitVec.getLsbD_eq_getElem, hi]

@[simp] theorem fieldImm_wordOfImm : fieldImm (wordOfImm op rd ra imm) = imm := by
  ext i hi
  simp only [fieldImm, wordOfImm, BitVec.getElem_extractLsb', BitVec.getLsbD_append]
  simp [hi, BitVec.getLsbD_eq_getElem]

/-- Masking a word masks its fields. -/
theorem wordOf_and : wordOf op rd ra rb z &&& wordOf op' rd' ra' rb' z' =
    wordOf (op &&& op') (rd &&& rd') (ra &&& ra') (rb &&& rb') (z &&& z') := by
  show (op ++ rd ++ ra ++ rb ++ z : BitVec (8 + 4 + 4 + 4 + 12)) &&& (op' ++ rd' ++ ra' ++ rb' ++ z') =
    (op &&& op') ++ (rd &&& rd') ++ (ra &&& ra') ++ (rb &&& rb') ++ (z &&& z')
  simp only [BitVec.and_append]

theorem wordOfImm_and : wordOfImm op rd ra imm &&& wordOfImm op' rd' ra' imm' =
    wordOfImm (op &&& op') (rd &&& rd') (ra &&& ra') (imm &&& imm') := by
  show (op ++ rd ++ ra ++ imm : BitVec (8 + 4 + 4 + 16)) &&& (op' ++ rd' ++ ra' ++ imm') =
    (op &&& op') ++ (rd &&& rd') ++ (ra &&& ra') ++ (imm &&& imm')
  simp only [BitVec.and_append]

/-- A word is the concatenation of its fields. -/
theorem wordOf_fields (w : Word) : wordOf (fieldOp w) (fieldRd w) (fieldRa w) (fieldRb w) (fieldZ w) = w := by
  apply BitVec.eq_of_getLsbD_eq
  intro i hi
  simp only [fieldOp, fieldRd, fieldRa, fieldRb, fieldZ, wordOf, BitVec.getLsbD_append, BitVec.getLsbD_extractLsb']
  by_cases h1 : i < 12
  · simp [h1]
  · by_cases h2 : i - 12 < 4
    · simp [h1, h2, show 12 + (i - 12) = i by omega]
    · by_cases h3 : i - 12 - 4 < 4
      · simp [h1, h2, h3, show 16 + (i - 12 - 4) = i by omega]
      · by_cases h4 : i - 12 - 4 - 4 < 4
        · simp [h1, h2, h3, h4, show 20 + (i - 12 - 4 - 4) = i by omega]
        · simp [h1, h2, h3, h4, show 24 + (i - 12 - 4 - 4 - 4) = i by omega, show i - 12 - 4 - 4 - 4 < 8 by omega]

/-- The register-number fields hold the numbers. -/
@[simp] theorem fregOf_ofFreg (r : FReg) : fregOf (ofFreg r) = r := by revert r; decide
@[simp] theorem pregOf_ofPreg (r : PReg) : pregOf (ofPreg r) = r := by revert r; decide
@[simp] theorem coordOf_ofCoord (c : Coord) : coordOf (ofCoord c) = c := by cases c <;> rfl
@[simp] theorem ofPreg_small (r : PReg) : (ofPreg r).toNat < 4 := by revert r; decide
@[simp] theorem ofCoord_small (c : Coord) : (ofCoord c).toNat < 3 := by cases c <;> decide

end Sys2Proof
end

