-- ==== Sys2Proof/Laws/Memory.lean ====
section
/-! SUPPORT. The laws of the buffers' memory: a read after a write, a store or a clear, and that every operation keeps
the canonical form, in which equal contents are equal lists. -/

namespace Sys2Proof.Machine.Memory

/-! ## Reads -/

theorem read_write_same (m : Memory) (a : Nat) (b : Byte) (h : m.wf = true) : (m.write a b).read a = b := by
  have key : ∀ (m : Memory) (lo : Nat), wfAbove lo m = true → ∀ a, a ≤ lo → m.read a = blank := by
    intro m
    induction m with
    | nil => intros; rfl
    | cons c t ih =>
      obtain ⟨k, v⟩ := c
      intro lo h a ha
      simp only [wfAbove, Bool.and_eq_true, decide_eq_true_eq] at h
      have : a ≠ k := by omega
      simpa [read, this] using ih k h.2 a (by omega)
  suffices H : ∀ (m : Memory) (lo : Nat), wfAbove lo m = true → (m.write a b).read a = b by
    cases m with
    | nil => by_cases hb : b = blank <;> simp [write, read, hb]
    | cons c t =>
      obtain ⟨k, v⟩ := c
      simp only [wf, Bool.and_eq_true] at h
      by_cases h1 : a < k
      · by_cases hb : b = blank
        · have : a ≠ k := by omega
          simpa [write, read, h1, hb, this] using key t k h.2 a (by omega)
        · simp [write, read, h1, hb]
      · by_cases h2 : a = k
        · by_cases hb : b = blank
          · simpa [write, h2, hb] using key t k h.2 k (le_refl k)
          · simp [write, read, h2, hb]
        · simpa [write, read, h1, h2] using H t k h.2
  intro m
  induction m with
  | nil => intro _ _; by_cases hb : b = blank <;> simp [write, read, hb]
  | cons c t ih =>
    obtain ⟨k, v⟩ := c
    intro lo h
    simp only [wfAbove, Bool.and_eq_true] at h
    by_cases h1 : a < k
    · by_cases hb : b = blank
      · have : a ≠ k := by omega
        simpa [write, read, h1, hb, this] using key t k h.2 a (by omega)
      · simp [write, read, h1, hb]
    · by_cases h2 : a = k
      · by_cases hb : b = blank
        · simpa [write, h2, hb] using key t k h.2 k (le_refl k)
        · simp [write, read, h2, hb]
      · simpa [write, read, h1, h2] using ih k h.2

theorem read_write_other (m : Memory) (a a' : Nat) (b : Byte) (h : a' ≠ a) : (m.write a b).read a' = m.read a' := by
  induction m with
  | nil => by_cases hb : b = blank <;> simp [write, read, hb, h]
  | cons c t ih =>
    obtain ⟨k, v⟩ := c
    simp only [write]
    split
    · split <;> simp [read, h]
    · split
      · rename_i h2
        subst h2
        split <;> simp [read, h]
      · simp only [read, ih]

/-! ## The canonical form -/

theorem wfAbove_mono {lo lo' : Nat} (m : Memory) (h : lo' ≤ lo) (hm : wfAbove lo m = true) : wfAbove lo' m = true := by
  cases m with
  | nil => rfl
  | cons c t =>
    obtain ⟨k, v⟩ := c
    simp only [wfAbove, Bool.and_eq_true, decide_eq_true_eq] at hm ⊢
    exact ⟨⟨by omega, hm.1.2⟩, hm.2⟩

theorem wf_of_wfAbove {lo : Nat} (m : Memory) (hm : wfAbove lo m = true) : m.wf = true := by
  cases m with
  | nil => rfl
  | cons c t => simp only [wfAbove, wf, Bool.and_eq_true] at hm ⊢; exact ⟨hm.1.2, hm.2⟩

theorem wfAbove_write {lo : Nat} (m : Memory) (a : Nat) (b : Byte) (ha : lo < a) (hm : wfAbove lo m = true) :
    wfAbove lo (m.write a b) = true := by
  induction m generalizing lo with
  | nil => by_cases hb : b = blank <;> simp [write, wfAbove, hb, ha]
  | cons c t ih =>
    obtain ⟨k, v⟩ := c
    simp only [wfAbove, Bool.and_eq_true, decide_eq_true_eq] at hm
    simp only [write]
    split
    · split
      · simp [wfAbove, hm]
      · simp [wfAbove, *]
    · split
      · split
        · exact wfAbove_mono t (le_of_lt hm.1.1) hm.2
        · simp_all [wfAbove]
      · simp only [wfAbove, Bool.and_eq_true, decide_eq_true_eq]
        exact ⟨hm.1, ih (by omega) hm.2⟩

/-- A write keeps the canonical form. -/
theorem wf_write (m : Memory) (a : Nat) (b : Byte) (hm : m.wf = true) : (m.write a b).wf = true := by
  cases m with
  | nil => by_cases hb : b = blank <;> simp [write, wf, wfAbove, hb]
  | cons c t =>
    obtain ⟨k, v⟩ := c
    simp only [wf, Bool.and_eq_true] at hm
    simp only [write]
    split
    · split
      · simp [wf, hm]
      · simp [wf, wfAbove, *]
    · split
      · split
        · exact wf_of_wfAbove t hm.2
        · simp_all [wf]
      · simp only [wf, Bool.and_eq_true]
        exact ⟨hm.1, wfAbove_write t a b (by omega) hm.2⟩

/-- Storing a byte string keeps the canonical form. -/
theorem wf_writeBytes (m : Memory) (a : Nat) (bs : List Byte) (hm : m.wf = true) : (m.writeBytes a bs).wf = true := by
  induction bs generalizing m a with
  | nil => exact hm
  | cons b bs ih => exact ih _ _ (wf_write m a b hm)

theorem wfAbove_filter {lo : Nat} (m : Memory) (p : Host.Cell → Bool) (hm : wfAbove lo m = true) :
    wfAbove lo (m.filter p) = true := by
  induction m generalizing lo with
  | nil => rfl
  | cons c t ih =>
    obtain ⟨k, v⟩ := c
    simp only [wfAbove, Bool.and_eq_true, decide_eq_true_eq] at hm
    simp only [List.filter_cons]
    split
    · simp only [wfAbove, Bool.and_eq_true, decide_eq_true_eq]
      exact ⟨hm.1, ih hm.2⟩
    · exact wfAbove_mono _ (le_of_lt hm.1.1) (ih hm.2)

/-- Clearing a range keeps the canonical form. -/
theorem wf_clear (m : Memory) (a n : Nat) (hm : m.wf = true) : (m.clear a n).wf = true := by
  cases m with
  | nil => rfl
  | cons c t =>
    obtain ⟨k, v⟩ := c
    simp only [wf, Bool.and_eq_true] at hm
    simp only [clear, List.filter_cons]
    split
    · simp only [wf, Bool.and_eq_true]
      exact ⟨hm.1, wfAbove_filter t _ hm.2⟩
    · exact wf_of_wfAbove _ (wfAbove_filter t _ hm.2)

/-- A cleared byte reads 0, and the others read as before: this needs no canonical form. -/
theorem read_clear (m : Memory) (base n a : Nat) :
    (m.clear base n).read a = if base ≤ a ∧ a < base + n then 0 else m.read a := by
  induction m with
  | nil => simp [clear, read, blank]
  | cons c t ih =>
    obtain ⟨k, v⟩ := c
    simp only [clear, List.filter_cons] at ih ⊢
    by_cases hk : base ≤ k ∧ k < base + n
    · have h1 : (!(decide (base ≤ k) && decide (k < base + n))) = false := by simp [hk]
      simp only [h1, Bool.false_eq_true, if_false, ih]
      by_cases hak : a = k
      · subst hak; simp [hk]
      · simp [read, hak]
    · have h1 : (!(decide (base ≤ k) && decide (k < base + n))) = true := by
        simp only [Bool.not_eq_true', Bool.and_eq_false_iff, decide_eq_false_iff_not]; omega
      simp only [h1, if_true, read, ih]
      by_cases hak : a = k
      · subst hak; simp [hk]
      · simp [hak]

/-- A stored byte string reads back, and the other bytes read as before. -/
theorem read_writeBytes (m : Memory) (base : Nat) (bs : List Byte) (a : Nat) (hm : m.wf = true) :
    (m.writeBytes base bs).read a = if base ≤ a ∧ a < base + bs.length then bs.getD (a - base) 0 else m.read a := by
  induction bs generalizing m base with
  | nil =>
    have : ¬(base ≤ a ∧ a < base + ([] : List Byte).length) := by simp
    rw [writeBytes, if_neg this]
  | cons b bs ih =>
    rw [writeBytes, ih _ _ (wf_write m base b hm), List.length_cons]
    by_cases h1 : a = base
    · subst h1
      simp [read_write_same m a b hm]
    · rw [read_write_other m base a b h1]
      by_cases h2 : base + 1 ≤ a ∧ a < base + 1 + bs.length
      · have h3 : base ≤ a ∧ a < base + (bs.length + 1) := by omega
        have h4 : a - base = (a - (base + 1)) + 1 := by omega
        rw [if_pos h2, if_pos h3, h4, List.getD_cons_succ]
      · have h3 : ¬(base ≤ a ∧ a < base + (bs.length + 1)) := by omega
        rw [if_neg h2, if_neg h3]

@[simp] theorem length_readBytes (m : Memory) (a n : Nat) : (m.readBytes a n).length = n := by simp [readBytes]

end Sys2Proof.Machine.Memory
end

