-- ==== Sys2Proof/Laws/State.lean ====
section
/-! SUPPORT. What each update of the state does to each field of it: one lemma per field per update, so that no later
proof unfolds a record update. -/

namespace Sys2Proof.Machine.State

/-! ## setF -/

@[simp] theorem setF_cfg (s : State) (r : FReg) (v : Nat) : (s.setF r v).cfg = s.cfg := rfl
@[simp] theorem setF_params (s : State) (r : FReg) (v : Nat) : (s.setF r v).params = s.params := rfl
@[simp] theorem setF_keys (s : State) (r : FReg) (v : Nat) : (s.setF r v).keys = s.keys := rfl
@[simp] theorem setF_consts (s : State) (r : FReg) (v : Nat) : (s.setF r v).consts = s.consts := rfl
@[simp] theorem setF_f (s : State) (r : FReg) (v : Nat) : (s.setF r v).f = s.f.set r.val v r.isLt := rfl
@[simp] theorem setF_pt (s : State) (r : FReg) (v : Nat) : (s.setF r v).pt = s.pt := rfl
@[simp] theorem setF_flags (s : State) (r : FReg) (v : Nat) : (s.setF r v).flags = s.flags := rfl
@[simp] theorem setF_status (s : State) (r : FReg) (v : Nat) : (s.setF r v).status = s.status := rfl
@[simp] theorem setF_ctrl (s : State) (r : FReg) (v : Nat) : (s.setF r v).ctrl = s.ctrl := rfl
@[simp] theorem setF_regs (s : State) (r : FReg) (v : Nat) : (s.setF r v).regs = s.regs := rfl
@[simp] theorem setF_phase (s : State) (r : FReg) (v : Nat) : (s.setF r v).phase = s.phase := rfl
@[simp] theorem setF_mem (s : State) (r : FReg) (v : Nat) : (s.setF r v).mem = s.mem := rfl
@[simp] theorem setF_scratch (s : State) (r : FReg) (v : Nat) : (s.setF r v).scratch = s.scratch := rfl
@[simp] theorem setF_turns (s : State) (r : FReg) (v : Nat) : (s.setF r v).turns = s.turns := rfl
@[simp] theorem setF_reply (s : State) (r : FReg) (v : Nat) : (s.setF r v).reply = s.reply := rfl
@[simp] theorem setF_freeCtr (s : State) (r : FReg) (v : Nat) : (s.setF r v).freeCtr = s.freeCtr := rfl

/-! ## setPt -/

@[simp] theorem setPt_cfg (s : State) (j : PReg) (T : Triple) : (s.setPt j T).cfg = s.cfg := rfl
@[simp] theorem setPt_params (s : State) (j : PReg) (T : Triple) : (s.setPt j T).params = s.params := rfl
@[simp] theorem setPt_keys (s : State) (j : PReg) (T : Triple) : (s.setPt j T).keys = s.keys := rfl
@[simp] theorem setPt_consts (s : State) (j : PReg) (T : Triple) : (s.setPt j T).consts = s.consts := rfl
@[simp] theorem setPt_f (s : State) (j : PReg) (T : Triple) : (s.setPt j T).f = s.f := rfl
@[simp] theorem setPt_pt (s : State) (j : PReg) (T : Triple) : (s.setPt j T).pt = s.pt.set j.val T j.isLt := rfl
@[simp] theorem setPt_flags (s : State) (j : PReg) (T : Triple) : (s.setPt j T).flags = s.flags := rfl
@[simp] theorem setPt_status (s : State) (j : PReg) (T : Triple) : (s.setPt j T).status = s.status := rfl
@[simp] theorem setPt_ctrl (s : State) (j : PReg) (T : Triple) : (s.setPt j T).ctrl = s.ctrl := rfl
@[simp] theorem setPt_regs (s : State) (j : PReg) (T : Triple) : (s.setPt j T).regs = s.regs := rfl
@[simp] theorem setPt_phase (s : State) (j : PReg) (T : Triple) : (s.setPt j T).phase = s.phase := rfl
@[simp] theorem setPt_mem (s : State) (j : PReg) (T : Triple) : (s.setPt j T).mem = s.mem := rfl
@[simp] theorem setPt_scratch (s : State) (j : PReg) (T : Triple) : (s.setPt j T).scratch = s.scratch := rfl
@[simp] theorem setPt_turns (s : State) (j : PReg) (T : Triple) : (s.setPt j T).turns = s.turns := rfl
@[simp] theorem setPt_reply (s : State) (j : PReg) (T : Triple) : (s.setPt j T).reply = s.reply := rfl
@[simp] theorem setPt_freeCtr (s : State) (j : PReg) (T : Triple) : (s.setPt j T).freeCtr = s.freeCtr := rfl

/-! ## writeBuf -/

@[simp] theorem writeBuf_cfg (s : State) (b : Buffer) (bs : List Byte) : (s.writeBuf b bs).cfg = s.cfg := rfl
@[simp] theorem writeBuf_params (s : State) (b : Buffer) (bs : List Byte) : (s.writeBuf b bs).params = s.params := rfl
@[simp] theorem writeBuf_keys (s : State) (b : Buffer) (bs : List Byte) : (s.writeBuf b bs).keys = s.keys := rfl
@[simp] theorem writeBuf_consts (s : State) (b : Buffer) (bs : List Byte) : (s.writeBuf b bs).consts = s.consts := rfl
@[simp] theorem writeBuf_f (s : State) (b : Buffer) (bs : List Byte) : (s.writeBuf b bs).f = s.f := rfl
@[simp] theorem writeBuf_pt (s : State) (b : Buffer) (bs : List Byte) : (s.writeBuf b bs).pt = s.pt := rfl
@[simp] theorem writeBuf_flags (s : State) (b : Buffer) (bs : List Byte) : (s.writeBuf b bs).flags = s.flags := rfl
@[simp] theorem writeBuf_status (s : State) (b : Buffer) (bs : List Byte) : (s.writeBuf b bs).status = s.status := rfl
@[simp] theorem writeBuf_ctrl (s : State) (b : Buffer) (bs : List Byte) : (s.writeBuf b bs).ctrl = s.ctrl := rfl
@[simp] theorem writeBuf_regs (s : State) (b : Buffer) (bs : List Byte) : (s.writeBuf b bs).regs = s.regs := rfl
@[simp] theorem writeBuf_phase (s : State) (b : Buffer) (bs : List Byte) : (s.writeBuf b bs).phase = s.phase := rfl
@[simp] theorem writeBuf_mem (s : State) (b : Buffer) (bs : List Byte) :
    (s.writeBuf b bs).mem = s.mem.writeBytes b.base bs := rfl
@[simp] theorem writeBuf_scratch (s : State) (b : Buffer) (bs : List Byte) :
    (s.writeBuf b bs).scratch = s.scratch := rfl
@[simp] theorem writeBuf_turns (s : State) (b : Buffer) (bs : List Byte) : (s.writeBuf b bs).turns = s.turns := rfl
@[simp] theorem writeBuf_reply (s : State) (b : Buffer) (bs : List Byte) : (s.writeBuf b bs).reply = s.reply := rfl
@[simp] theorem writeBuf_freeCtr (s : State) (b : Buffer) (bs : List Byte) :
    (s.writeBuf b bs).freeCtr = s.freeCtr := rfl

/-! ## clearBuf -/

@[simp] theorem clearBuf_cfg (s : State) (b : Buffer) : (s.clearBuf b).cfg = s.cfg := rfl
@[simp] theorem clearBuf_params (s : State) (b : Buffer) : (s.clearBuf b).params = s.params := rfl
@[simp] theorem clearBuf_keys (s : State) (b : Buffer) : (s.clearBuf b).keys = s.keys := rfl
@[simp] theorem clearBuf_consts (s : State) (b : Buffer) : (s.clearBuf b).consts = s.consts := rfl
@[simp] theorem clearBuf_f (s : State) (b : Buffer) : (s.clearBuf b).f = s.f := rfl
@[simp] theorem clearBuf_pt (s : State) (b : Buffer) : (s.clearBuf b).pt = s.pt := rfl
@[simp] theorem clearBuf_flags (s : State) (b : Buffer) : (s.clearBuf b).flags = s.flags := rfl
@[simp] theorem clearBuf_status (s : State) (b : Buffer) : (s.clearBuf b).status = s.status := rfl
@[simp] theorem clearBuf_ctrl (s : State) (b : Buffer) : (s.clearBuf b).ctrl = s.ctrl := rfl
@[simp] theorem clearBuf_regs (s : State) (b : Buffer) : (s.clearBuf b).regs = s.regs := rfl
@[simp] theorem clearBuf_phase (s : State) (b : Buffer) : (s.clearBuf b).phase = s.phase := rfl
@[simp] theorem clearBuf_mem (s : State) (b : Buffer) : (s.clearBuf b).mem = s.mem.clear b.base (b.cap s.cfg) := rfl
@[simp] theorem clearBuf_scratch (s : State) (b : Buffer) : (s.clearBuf b).scratch = s.scratch := rfl
@[simp] theorem clearBuf_turns (s : State) (b : Buffer) : (s.clearBuf b).turns = s.turns := rfl
@[simp] theorem clearBuf_reply (s : State) (b : Buffer) : (s.clearBuf b).reply = s.reply := rfl
@[simp] theorem clearBuf_freeCtr (s : State) (b : Buffer) : (s.clearBuf b).freeCtr = s.freeCtr := rfl

/-! ## accept -/

@[simp] theorem accept_cfg (s : State) (w : Word) (ph : Phase) : (s.accept w ph).cfg = s.cfg := rfl
@[simp] theorem accept_params (s : State) (w : Word) (ph : Phase) : (s.accept w ph).params = s.params := rfl
@[simp] theorem accept_keys (s : State) (w : Word) (ph : Phase) : (s.accept w ph).keys = s.keys := rfl
@[simp] theorem accept_consts (s : State) (w : Word) (ph : Phase) : (s.accept w ph).consts = s.consts := rfl
@[simp] theorem accept_f (s : State) (w : Word) (ph : Phase) : (s.accept w ph).f = s.f := rfl
@[simp] theorem accept_pt (s : State) (w : Word) (ph : Phase) : (s.accept w ph).pt = s.pt := rfl
@[simp] theorem accept_flags (s : State) (w : Word) (ph : Phase) : (s.accept w ph).flags = s.flags := rfl
@[simp] theorem accept_status (s : State) (w : Word) (ph : Phase) :
    (s.accept w ph).status = { s.status with busy := true, done := false } := rfl
@[simp] theorem accept_ctrl (s : State) (w : Word) (ph : Phase) : (s.accept w ph).ctrl = s.ctrl := rfl
@[simp] theorem accept_regs (s : State) (w : Word) (ph : Phase) : (s.accept w ph).regs = s.regs := rfl
@[simp] theorem accept_phase (s : State) (w : Word) (ph : Phase) : (s.accept w ph).phase = ph := rfl
@[simp] theorem accept_mem (s : State) (w : Word) (ph : Phase) : (s.accept w ph).mem = s.mem := rfl
@[simp] theorem accept_scratch (s : State) (w : Word) (ph : Phase) :
    (s.accept w ph).scratch = { Scratch.zero with cmd := w } := rfl
@[simp] theorem accept_turns (s : State) (w : Word) (ph : Phase) : (s.accept w ph).turns = s.turns := rfl
@[simp] theorem accept_reply (s : State) (w : Word) (ph : Phase) : (s.accept w ph).reply = s.reply := rfl
@[simp] theorem accept_freeCtr (s : State) (w : Word) (ph : Phase) : (s.accept w ph).freeCtr = s.freeCtr := rfl

/-! ## complete -/

@[simp] theorem complete_cfg (s : State) : (s.complete).cfg = s.cfg := rfl
@[simp] theorem complete_params (s : State) : (s.complete).params = s.params := rfl
@[simp] theorem complete_keys (s : State) : (s.complete).keys = s.keys := rfl
@[simp] theorem complete_consts (s : State) : (s.complete).consts = s.consts := rfl
@[simp] theorem complete_f (s : State) : (s.complete).f = s.f := rfl
@[simp] theorem complete_pt (s : State) : (s.complete).pt = s.pt := rfl
@[simp] theorem complete_flags (s : State) : (s.complete).flags = s.flags := rfl
@[simp] theorem complete_status (s : State) : (s.complete).status = { s.status with busy := false, done := true } := rfl
@[simp] theorem complete_ctrl (s : State) : (s.complete).ctrl = s.ctrl := rfl
@[simp] theorem complete_regs (s : State) : (s.complete).regs = s.regs := rfl
@[simp] theorem complete_phase (s : State) : (s.complete).phase = .idle := rfl
@[simp] theorem complete_mem (s : State) : (s.complete).mem = s.mem := rfl
@[simp] theorem complete_scratch (s : State) : (s.complete).scratch = .zero := rfl
@[simp] theorem complete_turns (s : State) : (s.complete).turns = s.turns := rfl
@[simp] theorem complete_reply (s : State) : (s.complete).reply = s.reply := rfl
@[simp] theorem complete_freeCtr (s : State) : (s.complete).freeCtr = s.freeCtr := rfl

/-! ## raise -/

@[simp] theorem raise_cfg (s : State) (F : CmdFault) : (s.raise F).cfg = s.cfg := rfl
@[simp] theorem raise_params (s : State) (F : CmdFault) : (s.raise F).params = s.params := rfl
@[simp] theorem raise_keys (s : State) (F : CmdFault) : (s.raise F).keys = s.keys := rfl
@[simp] theorem raise_consts (s : State) (F : CmdFault) : (s.raise F).consts = s.consts := rfl
@[simp] theorem raise_f (s : State) (F : CmdFault) : (s.raise F).f = s.f := rfl
@[simp] theorem raise_pt (s : State) (F : CmdFault) : (s.raise F).pt = s.pt := rfl
@[simp] theorem raise_flags (s : State) (F : CmdFault) : (s.raise F).flags = s.flags := rfl
@[simp] theorem raise_status (s : State) (F : CmdFault) :
    (s.raise F).status = { s.status with busy := false, done := true, err := true } := rfl
@[simp] theorem raise_ctrl (s : State) (F : CmdFault) : (s.raise F).ctrl = s.ctrl := rfl
@[simp] theorem raise_regs (s : State) (F : CmdFault) : (s.raise F).regs = { s.regs with errcode := F.code } := rfl
@[simp] theorem raise_phase (s : State) (F : CmdFault) : (s.raise F).phase = .idle := rfl
@[simp] theorem raise_mem (s : State) (F : CmdFault) : (s.raise F).mem = s.mem := rfl
@[simp] theorem raise_scratch (s : State) (F : CmdFault) : (s.raise F).scratch = .zero := rfl
@[simp] theorem raise_turns (s : State) (F : CmdFault) : (s.raise F).turns = s.turns := rfl
@[simp] theorem raise_reply (s : State) (F : CmdFault) : (s.raise F).reply = s.reply := rfl
@[simp] theorem raise_freeCtr (s : State) (F : CmdFault) : (s.raise F).freeCtr = s.freeCtr := rfl

/-! ## acknowledge -/

@[simp] theorem acknowledge_cfg (s : State) (v : Word) : (s.acknowledge v).cfg = s.cfg := rfl
@[simp] theorem acknowledge_params (s : State) (v : Word) : (s.acknowledge v).params = s.params := rfl
@[simp] theorem acknowledge_keys (s : State) (v : Word) : (s.acknowledge v).keys = s.keys := rfl
@[simp] theorem acknowledge_consts (s : State) (v : Word) : (s.acknowledge v).consts = s.consts := rfl
@[simp] theorem acknowledge_f (s : State) (v : Word) : (s.acknowledge v).f = s.f := rfl
@[simp] theorem acknowledge_pt (s : State) (v : Word) : (s.acknowledge v).pt = s.pt := rfl
@[simp] theorem acknowledge_flags (s : State) (v : Word) : (s.acknowledge v).flags = s.flags := rfl
@[simp] theorem acknowledge_status (s : State) (v : Word) :
    (s.acknowledge v).status = { s.status with
      done := s.status.done && !v.getLsbD 1
      err := s.status.err && !v.getLsbD 2
      drop := s.status.drop && !v.getLsbD 3 } := rfl
@[simp] theorem acknowledge_ctrl (s : State) (v : Word) : (s.acknowledge v).ctrl = s.ctrl := rfl
@[simp] theorem acknowledge_regs (s : State) (v : Word) :
    (s.acknowledge v).regs = { s.regs with errcode := if v.getLsbD 2 then 0 else s.regs.errcode } := rfl
@[simp] theorem acknowledge_phase (s : State) (v : Word) : (s.acknowledge v).phase = s.phase := rfl
@[simp] theorem acknowledge_mem (s : State) (v : Word) : (s.acknowledge v).mem = s.mem := rfl
@[simp] theorem acknowledge_scratch (s : State) (v : Word) : (s.acknowledge v).scratch = s.scratch := rfl
@[simp] theorem acknowledge_turns (s : State) (v : Word) : (s.acknowledge v).turns = s.turns := rfl
@[simp] theorem acknowledge_reply (s : State) (v : Word) : (s.acknowledge v).reply = s.reply := rfl
@[simp] theorem acknowledge_freeCtr (s : State) (v : Word) : (s.acknowledge v).freeCtr = s.freeCtr := rfl

/-! ## setDrop -/

@[simp] theorem setDrop_cfg (s : State) : (s.setDrop).cfg = s.cfg := rfl
@[simp] theorem setDrop_params (s : State) : (s.setDrop).params = s.params := rfl
@[simp] theorem setDrop_keys (s : State) : (s.setDrop).keys = s.keys := rfl
@[simp] theorem setDrop_consts (s : State) : (s.setDrop).consts = s.consts := rfl
@[simp] theorem setDrop_f (s : State) : (s.setDrop).f = s.f := rfl
@[simp] theorem setDrop_pt (s : State) : (s.setDrop).pt = s.pt := rfl
@[simp] theorem setDrop_flags (s : State) : (s.setDrop).flags = s.flags := rfl
@[simp] theorem setDrop_status (s : State) : (s.setDrop).status = { s.status with drop := true } := rfl
@[simp] theorem setDrop_ctrl (s : State) : (s.setDrop).ctrl = s.ctrl := rfl
@[simp] theorem setDrop_regs (s : State) : (s.setDrop).regs = s.regs := rfl
@[simp] theorem setDrop_phase (s : State) : (s.setDrop).phase = s.phase := rfl
@[simp] theorem setDrop_mem (s : State) : (s.setDrop).mem = s.mem := rfl
@[simp] theorem setDrop_scratch (s : State) : (s.setDrop).scratch = s.scratch := rfl
@[simp] theorem setDrop_turns (s : State) : (s.setDrop).turns = s.turns := rfl
@[simp] theorem setDrop_reply (s : State) : (s.setDrop).reply = s.reply := rfl
@[simp] theorem setDrop_freeCtr (s : State) : (s.setDrop).freeCtr = s.freeCtr := rfl

/-! ## cmpFlags -/

@[simp] theorem cmpFlags_cfg (s : State) (x y : Nat) : (s.cmpFlags x y).cfg = s.cfg := rfl
@[simp] theorem cmpFlags_params (s : State) (x y : Nat) : (s.cmpFlags x y).params = s.params := rfl
@[simp] theorem cmpFlags_keys (s : State) (x y : Nat) : (s.cmpFlags x y).keys = s.keys := rfl
@[simp] theorem cmpFlags_consts (s : State) (x y : Nat) : (s.cmpFlags x y).consts = s.consts := rfl
@[simp] theorem cmpFlags_f (s : State) (x y : Nat) : (s.cmpFlags x y).f = s.f := rfl
@[simp] theorem cmpFlags_pt (s : State) (x y : Nat) : (s.cmpFlags x y).pt = s.pt := rfl
@[simp] theorem cmpFlags_flags (s : State) (x y : Nat) :
    (s.cmpFlags x y).flags = { s.flags with z := x == y, c := decide (x < y) } := rfl
@[simp] theorem cmpFlags_status (s : State) (x y : Nat) : (s.cmpFlags x y).status = s.status := rfl
@[simp] theorem cmpFlags_ctrl (s : State) (x y : Nat) : (s.cmpFlags x y).ctrl = s.ctrl := rfl
@[simp] theorem cmpFlags_regs (s : State) (x y : Nat) : (s.cmpFlags x y).regs = s.regs := rfl
@[simp] theorem cmpFlags_phase (s : State) (x y : Nat) : (s.cmpFlags x y).phase = s.phase := rfl
@[simp] theorem cmpFlags_mem (s : State) (x y : Nat) : (s.cmpFlags x y).mem = s.mem := rfl
@[simp] theorem cmpFlags_scratch (s : State) (x y : Nat) : (s.cmpFlags x y).scratch = s.scratch := rfl
@[simp] theorem cmpFlags_turns (s : State) (x y : Nat) : (s.cmpFlags x y).turns = s.turns := rfl
@[simp] theorem cmpFlags_reply (s : State) (x y : Nat) : (s.cmpFlags x y).reply = s.reply := rfl
@[simp] theorem cmpFlags_freeCtr (s : State) (x y : Nat) : (s.cmpFlags x y).freeCtr = s.freeCtr := rfl

/-! ## peqFlags -/

@[simp] theorem peqFlags_cfg (s : State) (T U : Triple) : (s.peqFlags T U).cfg = s.cfg := rfl
@[simp] theorem peqFlags_params (s : State) (T U : Triple) : (s.peqFlags T U).params = s.params := rfl
@[simp] theorem peqFlags_keys (s : State) (T U : Triple) : (s.peqFlags T U).keys = s.keys := rfl
@[simp] theorem peqFlags_consts (s : State) (T U : Triple) : (s.peqFlags T U).consts = s.consts := rfl
@[simp] theorem peqFlags_f (s : State) (T U : Triple) : (s.peqFlags T U).f = s.f := rfl
@[simp] theorem peqFlags_pt (s : State) (T U : Triple) : (s.peqFlags T U).pt = s.pt := rfl
@[simp] theorem peqFlags_flags (s : State) (T U : Triple) :
    (s.peqFlags T U).flags = { s.flags with z := pointEq s.params.p T U } := rfl
@[simp] theorem peqFlags_status (s : State) (T U : Triple) : (s.peqFlags T U).status = s.status := rfl
@[simp] theorem peqFlags_ctrl (s : State) (T U : Triple) : (s.peqFlags T U).ctrl = s.ctrl := rfl
@[simp] theorem peqFlags_regs (s : State) (T U : Triple) : (s.peqFlags T U).regs = s.regs := rfl
@[simp] theorem peqFlags_phase (s : State) (T U : Triple) : (s.peqFlags T U).phase = s.phase := rfl
@[simp] theorem peqFlags_mem (s : State) (T U : Triple) : (s.peqFlags T U).mem = s.mem := rfl
@[simp] theorem peqFlags_scratch (s : State) (T U : Triple) : (s.peqFlags T U).scratch = s.scratch := rfl
@[simp] theorem peqFlags_turns (s : State) (T U : Triple) : (s.peqFlags T U).turns = s.turns := rfl
@[simp] theorem peqFlags_reply (s : State) (T U : Triple) : (s.peqFlags T U).reply = s.reply := rfl
@[simp] theorem peqFlags_freeCtr (s : State) (T U : Triple) : (s.peqFlags T U).freeCtr = s.freeCtr := rfl

/-! ## infFlags -/

@[simp] theorem infFlags_cfg (s : State) (T : Triple) : (s.infFlags T).cfg = s.cfg := rfl
@[simp] theorem infFlags_params (s : State) (T : Triple) : (s.infFlags T).params = s.params := rfl
@[simp] theorem infFlags_keys (s : State) (T : Triple) : (s.infFlags T).keys = s.keys := rfl
@[simp] theorem infFlags_consts (s : State) (T : Triple) : (s.infFlags T).consts = s.consts := rfl
@[simp] theorem infFlags_f (s : State) (T : Triple) : (s.infFlags T).f = s.f := rfl
@[simp] theorem infFlags_pt (s : State) (T : Triple) : (s.infFlags T).pt = s.pt := rfl
@[simp] theorem infFlags_flags (s : State) (T : Triple) : (s.infFlags T).flags = { s.flags with i := T.z == 0 } := rfl
@[simp] theorem infFlags_status (s : State) (T : Triple) : (s.infFlags T).status = s.status := rfl
@[simp] theorem infFlags_ctrl (s : State) (T : Triple) : (s.infFlags T).ctrl = s.ctrl := rfl
@[simp] theorem infFlags_regs (s : State) (T : Triple) : (s.infFlags T).regs = s.regs := rfl
@[simp] theorem infFlags_phase (s : State) (T : Triple) : (s.infFlags T).phase = s.phase := rfl
@[simp] theorem infFlags_mem (s : State) (T : Triple) : (s.infFlags T).mem = s.mem := rfl
@[simp] theorem infFlags_scratch (s : State) (T : Triple) : (s.infFlags T).scratch = s.scratch := rfl
@[simp] theorem infFlags_turns (s : State) (T : Triple) : (s.infFlags T).turns = s.turns := rfl
@[simp] theorem infFlags_reply (s : State) (T : Triple) : (s.infFlags T).reply = s.reply := rfl
@[simp] theorem infFlags_freeCtr (s : State) (T : Triple) : (s.infFlags T).freeCtr = s.freeCtr := rfl

/-! ## oncFlags -/

@[simp] theorem oncFlags_cfg (s : State) (x y : Nat) : (s.oncFlags x y).cfg = s.cfg := rfl
@[simp] theorem oncFlags_params (s : State) (x y : Nat) : (s.oncFlags x y).params = s.params := rfl
@[simp] theorem oncFlags_keys (s : State) (x y : Nat) : (s.oncFlags x y).keys = s.keys := rfl
@[simp] theorem oncFlags_consts (s : State) (x y : Nat) : (s.oncFlags x y).consts = s.consts := rfl
@[simp] theorem oncFlags_f (s : State) (x y : Nat) : (s.oncFlags x y).f = s.f := rfl
@[simp] theorem oncFlags_pt (s : State) (x y : Nat) : (s.oncFlags x y).pt = s.pt := rfl
@[simp] theorem oncFlags_flags (s : State) (x y : Nat) :
    (s.oncFlags x y).flags = { s.flags with v := s.isOnCurve x y } := rfl
@[simp] theorem oncFlags_status (s : State) (x y : Nat) : (s.oncFlags x y).status = s.status := rfl
@[simp] theorem oncFlags_ctrl (s : State) (x y : Nat) : (s.oncFlags x y).ctrl = s.ctrl := rfl
@[simp] theorem oncFlags_regs (s : State) (x y : Nat) : (s.oncFlags x y).regs = s.regs := rfl
@[simp] theorem oncFlags_phase (s : State) (x y : Nat) : (s.oncFlags x y).phase = s.phase := rfl
@[simp] theorem oncFlags_mem (s : State) (x y : Nat) : (s.oncFlags x y).mem = s.mem := rfl
@[simp] theorem oncFlags_scratch (s : State) (x y : Nat) : (s.oncFlags x y).scratch = s.scratch := rfl
@[simp] theorem oncFlags_turns (s : State) (x y : Nat) : (s.oncFlags x y).turns = s.turns := rfl
@[simp] theorem oncFlags_reply (s : State) (x y : Nat) : (s.oncFlags x y).reply = s.reply := rfl
@[simp] theorem oncFlags_freeCtr (s : State) (x y : Nat) : (s.oncFlags x y).freeCtr = s.freeCtr := rfl

/-! ## setCursor -/

@[simp] theorem setCursor_cfg (s : State) (c : Cursor) : (s.setCursor c).cfg = s.cfg := rfl
@[simp] theorem setCursor_params (s : State) (c : Cursor) : (s.setCursor c).params = s.params := rfl
@[simp] theorem setCursor_keys (s : State) (c : Cursor) : (s.setCursor c).keys = s.keys := rfl
@[simp] theorem setCursor_consts (s : State) (c : Cursor) : (s.setCursor c).consts = s.consts := rfl
@[simp] theorem setCursor_f (s : State) (c : Cursor) : (s.setCursor c).f = s.f := rfl
@[simp] theorem setCursor_pt (s : State) (c : Cursor) : (s.setCursor c).pt = s.pt := rfl
@[simp] theorem setCursor_flags (s : State) (c : Cursor) : (s.setCursor c).flags = s.flags := rfl
@[simp] theorem setCursor_status (s : State) (c : Cursor) : (s.setCursor c).status = s.status := rfl
@[simp] theorem setCursor_ctrl (s : State) (c : Cursor) : (s.setCursor c).ctrl = s.ctrl := rfl
@[simp] theorem setCursor_regs (s : State) (c : Cursor) :
    (s.setCursor c).regs = { s.regs with rngpos := c.rngpos } := rfl
@[simp] theorem setCursor_phase (s : State) (c : Cursor) : (s.setCursor c).phase = s.phase := rfl
@[simp] theorem setCursor_mem (s : State) (c : Cursor) : (s.setCursor c).mem = s.mem := rfl
@[simp] theorem setCursor_scratch (s : State) (c : Cursor) : (s.setCursor c).scratch = s.scratch := rfl
@[simp] theorem setCursor_turns (s : State) (c : Cursor) : (s.setCursor c).turns = s.turns := rfl
@[simp] theorem setCursor_reply (s : State) (c : Cursor) : (s.setCursor c).reply = s.reply := rfl
@[simp] theorem setCursor_freeCtr (s : State) (c : Cursor) : (s.setCursor c).freeCtr = c.freeCtr := rfl

/-! ## setAtt -/

@[simp] theorem setAtt_cfg (s : State) (n : Nat) : (s.setAtt n).cfg = s.cfg := rfl
@[simp] theorem setAtt_params (s : State) (n : Nat) : (s.setAtt n).params = s.params := rfl
@[simp] theorem setAtt_keys (s : State) (n : Nat) : (s.setAtt n).keys = s.keys := rfl
@[simp] theorem setAtt_consts (s : State) (n : Nat) : (s.setAtt n).consts = s.consts := rfl
@[simp] theorem setAtt_f (s : State) (n : Nat) : (s.setAtt n).f = s.f := rfl
@[simp] theorem setAtt_pt (s : State) (n : Nat) : (s.setAtt n).pt = s.pt := rfl
@[simp] theorem setAtt_flags (s : State) (n : Nat) : (s.setAtt n).flags = s.flags := rfl
@[simp] theorem setAtt_status (s : State) (n : Nat) : (s.setAtt n).status = s.status := rfl
@[simp] theorem setAtt_ctrl (s : State) (n : Nat) : (s.setAtt n).ctrl = s.ctrl := rfl
@[simp] theorem setAtt_regs (s : State) (n : Nat) : (s.setAtt n).regs = { s.regs with att := BitVec.ofNat 8 n } := rfl
@[simp] theorem setAtt_phase (s : State) (n : Nat) : (s.setAtt n).phase = s.phase := rfl
@[simp] theorem setAtt_mem (s : State) (n : Nat) : (s.setAtt n).mem = s.mem := rfl
@[simp] theorem setAtt_scratch (s : State) (n : Nat) : (s.setAtt n).scratch = s.scratch := rfl
@[simp] theorem setAtt_turns (s : State) (n : Nat) : (s.setAtt n).turns = s.turns := rfl
@[simp] theorem setAtt_reply (s : State) (n : Nat) : (s.setAtt n).reply = s.reply := rfl
@[simp] theorem setAtt_freeCtr (s : State) (n : Nat) : (s.setAtt n).freeCtr = s.freeCtr := rfl

/-! ## putRecord -/

@[simp] theorem putRecord_cfg (s : State) (r : List Byte) : (s.putRecord r).cfg = s.cfg := rfl
@[simp] theorem putRecord_params (s : State) (r : List Byte) : (s.putRecord r).params = s.params := rfl
@[simp] theorem putRecord_keys (s : State) (r : List Byte) : (s.putRecord r).keys = s.keys := rfl
@[simp] theorem putRecord_consts (s : State) (r : List Byte) : (s.putRecord r).consts = s.consts := rfl
@[simp] theorem putRecord_f (s : State) (r : List Byte) : (s.putRecord r).f = s.f := rfl
@[simp] theorem putRecord_pt (s : State) (r : List Byte) : (s.putRecord r).pt = s.pt := rfl
@[simp] theorem putRecord_flags (s : State) (r : List Byte) : (s.putRecord r).flags = s.flags := rfl
@[simp] theorem putRecord_status (s : State) (r : List Byte) : (s.putRecord r).status = s.status := rfl
@[simp] theorem putRecord_ctrl (s : State) (r : List Byte) : (s.putRecord r).ctrl = s.ctrl := rfl
@[simp] theorem putRecord_regs (s : State) (r : List Byte) :
    (s.putRecord r).regs = { s.regs with reclen := BitVec.ofNat 32 r.length } := rfl
@[simp] theorem putRecord_phase (s : State) (r : List Byte) : (s.putRecord r).phase = s.phase := rfl
@[simp] theorem putRecord_mem (s : State) (r : List Byte) :
    (s.putRecord r).mem = s.mem.writeBytes Buffer.record.base r := rfl
@[simp] theorem putRecord_scratch (s : State) (r : List Byte) : (s.putRecord r).scratch = s.scratch := rfl
@[simp] theorem putRecord_turns (s : State) (r : List Byte) : (s.putRecord r).turns = s.turns := rfl
@[simp] theorem putRecord_reply (s : State) (r : List Byte) : (s.putRecord r).reply = s.reply := rfl
@[simp] theorem putRecord_freeCtr (s : State) (r : List Byte) : (s.putRecord r).freeCtr = s.freeCtr := rfl

/-! ## putMessage -/

@[simp] theorem putMessage_cfg (s : State) (m : List Byte) : (s.putMessage m).cfg = s.cfg := rfl
@[simp] theorem putMessage_params (s : State) (m : List Byte) : (s.putMessage m).params = s.params := rfl
@[simp] theorem putMessage_keys (s : State) (m : List Byte) : (s.putMessage m).keys = s.keys := rfl
@[simp] theorem putMessage_consts (s : State) (m : List Byte) : (s.putMessage m).consts = s.consts := rfl
@[simp] theorem putMessage_f (s : State) (m : List Byte) : (s.putMessage m).f = s.f := rfl
@[simp] theorem putMessage_pt (s : State) (m : List Byte) : (s.putMessage m).pt = s.pt := rfl
@[simp] theorem putMessage_flags (s : State) (m : List Byte) : (s.putMessage m).flags = s.flags := rfl
@[simp] theorem putMessage_status (s : State) (m : List Byte) : (s.putMessage m).status = s.status := rfl
@[simp] theorem putMessage_ctrl (s : State) (m : List Byte) : (s.putMessage m).ctrl = s.ctrl := rfl
@[simp] theorem putMessage_regs (s : State) (m : List Byte) :
    (s.putMessage m).regs = { s.regs with msglen := BitVec.ofNat 32 m.length } := rfl
@[simp] theorem putMessage_phase (s : State) (m : List Byte) : (s.putMessage m).phase = s.phase := rfl
@[simp] theorem putMessage_mem (s : State) (m : List Byte) :
    (s.putMessage m).mem = s.mem.writeBytes Buffer.msg.base m := rfl
@[simp] theorem putMessage_scratch (s : State) (m : List Byte) : (s.putMessage m).scratch = s.scratch := rfl
@[simp] theorem putMessage_turns (s : State) (m : List Byte) : (s.putMessage m).turns = s.turns := rfl
@[simp] theorem putMessage_reply (s : State) (m : List Byte) : (s.putMessage m).reply = s.reply := rfl
@[simp] theorem putMessage_freeCtr (s : State) (m : List Byte) : (s.putMessage m).freeCtr = s.freeCtr := rfl

/-! ## toPhase -/

@[simp] theorem toPhase_cfg (s : State) (ph : Phase) : (s.toPhase ph).cfg = s.cfg := rfl
@[simp] theorem toPhase_params (s : State) (ph : Phase) : (s.toPhase ph).params = s.params := rfl
@[simp] theorem toPhase_keys (s : State) (ph : Phase) : (s.toPhase ph).keys = s.keys := rfl
@[simp] theorem toPhase_consts (s : State) (ph : Phase) : (s.toPhase ph).consts = s.consts := rfl
@[simp] theorem toPhase_f (s : State) (ph : Phase) : (s.toPhase ph).f = s.f := rfl
@[simp] theorem toPhase_pt (s : State) (ph : Phase) : (s.toPhase ph).pt = s.pt := rfl
@[simp] theorem toPhase_flags (s : State) (ph : Phase) : (s.toPhase ph).flags = s.flags := rfl
@[simp] theorem toPhase_status (s : State) (ph : Phase) : (s.toPhase ph).status = s.status := rfl
@[simp] theorem toPhase_ctrl (s : State) (ph : Phase) : (s.toPhase ph).ctrl = s.ctrl := rfl
@[simp] theorem toPhase_regs (s : State) (ph : Phase) : (s.toPhase ph).regs = s.regs := rfl
@[simp] theorem toPhase_phase (s : State) (ph : Phase) : (s.toPhase ph).phase = ph := rfl
@[simp] theorem toPhase_mem (s : State) (ph : Phase) : (s.toPhase ph).mem = s.mem := rfl
@[simp] theorem toPhase_scratch (s : State) (ph : Phase) : (s.toPhase ph).scratch = s.scratch := rfl
@[simp] theorem toPhase_turns (s : State) (ph : Phase) : (s.toPhase ph).turns = s.turns := rfl
@[simp] theorem toPhase_reply (s : State) (ph : Phase) : (s.toPhase ph).reply = s.reply := rfl
@[simp] theorem toPhase_freeCtr (s : State) (ph : Phase) : (s.toPhase ph).freeCtr = s.freeCtr := rfl

/-! ## toPhaseWith -/

@[simp] theorem toPhaseWith_cfg (s : State) (ph : Phase) (c : Scratch) : (s.toPhaseWith ph c).cfg = s.cfg := rfl
@[simp] theorem toPhaseWith_params (s : State) (ph : Phase) (c : Scratch) :
    (s.toPhaseWith ph c).params = s.params := rfl
@[simp] theorem toPhaseWith_keys (s : State) (ph : Phase) (c : Scratch) : (s.toPhaseWith ph c).keys = s.keys := rfl
@[simp] theorem toPhaseWith_consts (s : State) (ph : Phase) (c : Scratch) :
    (s.toPhaseWith ph c).consts = s.consts := rfl
@[simp] theorem toPhaseWith_f (s : State) (ph : Phase) (c : Scratch) : (s.toPhaseWith ph c).f = s.f := rfl
@[simp] theorem toPhaseWith_pt (s : State) (ph : Phase) (c : Scratch) : (s.toPhaseWith ph c).pt = s.pt := rfl
@[simp] theorem toPhaseWith_flags (s : State) (ph : Phase) (c : Scratch) : (s.toPhaseWith ph c).flags = s.flags := rfl
@[simp] theorem toPhaseWith_status (s : State) (ph : Phase) (c : Scratch) :
    (s.toPhaseWith ph c).status = s.status := rfl
@[simp] theorem toPhaseWith_ctrl (s : State) (ph : Phase) (c : Scratch) : (s.toPhaseWith ph c).ctrl = s.ctrl := rfl
@[simp] theorem toPhaseWith_regs (s : State) (ph : Phase) (c : Scratch) : (s.toPhaseWith ph c).regs = s.regs := rfl
@[simp] theorem toPhaseWith_phase (s : State) (ph : Phase) (c : Scratch) : (s.toPhaseWith ph c).phase = ph := rfl
@[simp] theorem toPhaseWith_mem (s : State) (ph : Phase) (c : Scratch) : (s.toPhaseWith ph c).mem = s.mem := rfl
@[simp] theorem toPhaseWith_scratch (s : State) (ph : Phase) (c : Scratch) : (s.toPhaseWith ph c).scratch = c := rfl
@[simp] theorem toPhaseWith_turns (s : State) (ph : Phase) (c : Scratch) : (s.toPhaseWith ph c).turns = s.turns := rfl
@[simp] theorem toPhaseWith_reply (s : State) (ph : Phase) (c : Scratch) : (s.toPhaseWith ph c).reply = s.reply := rfl
@[simp] theorem toPhaseWith_freeCtr (s : State) (ph : Phase) (c : Scratch) :
    (s.toPhaseWith ph c).freeCtr = s.freeCtr := rfl

/-! ## toWipe -/

@[simp] theorem toWipe_cfg (s : State) (ph : Phase) (F : CmdFault) : (s.toWipe ph F).cfg = s.cfg := rfl
@[simp] theorem toWipe_params (s : State) (ph : Phase) (F : CmdFault) : (s.toWipe ph F).params = s.params := rfl
@[simp] theorem toWipe_keys (s : State) (ph : Phase) (F : CmdFault) : (s.toWipe ph F).keys = s.keys := rfl
@[simp] theorem toWipe_consts (s : State) (ph : Phase) (F : CmdFault) : (s.toWipe ph F).consts = s.consts := rfl
@[simp] theorem toWipe_f (s : State) (ph : Phase) (F : CmdFault) : (s.toWipe ph F).f = s.f := rfl
@[simp] theorem toWipe_pt (s : State) (ph : Phase) (F : CmdFault) : (s.toWipe ph F).pt = s.pt := rfl
@[simp] theorem toWipe_flags (s : State) (ph : Phase) (F : CmdFault) : (s.toWipe ph F).flags = s.flags := rfl
@[simp] theorem toWipe_status (s : State) (ph : Phase) (F : CmdFault) : (s.toWipe ph F).status = s.status := rfl
@[simp] theorem toWipe_ctrl (s : State) (ph : Phase) (F : CmdFault) : (s.toWipe ph F).ctrl = s.ctrl := rfl
@[simp] theorem toWipe_regs (s : State) (ph : Phase) (F : CmdFault) : (s.toWipe ph F).regs = s.regs := rfl
@[simp] theorem toWipe_phase (s : State) (ph : Phase) (F : CmdFault) : (s.toWipe ph F).phase = ph := rfl
@[simp] theorem toWipe_mem (s : State) (ph : Phase) (F : CmdFault) : (s.toWipe ph F).mem = s.mem := rfl
@[simp] theorem toWipe_scratch (s : State) (ph : Phase) (F : CmdFault) :
    (s.toWipe ph F).scratch = { s.scratch with fault := some F } := rfl
@[simp] theorem toWipe_turns (s : State) (ph : Phase) (F : CmdFault) : (s.toWipe ph F).turns = s.turns := rfl
@[simp] theorem toWipe_reply (s : State) (ph : Phase) (F : CmdFault) : (s.toWipe ph F).reply = s.reply := rfl
@[simp] theorem toWipe_freeCtr (s : State) (ph : Phase) (F : CmdFault) : (s.toWipe ph F).freeCtr = s.freeCtr := rfl

/-! ## hostReset -/

@[simp] theorem hostReset_cfg (s : State) : (s.hostReset).cfg = s.cfg := rfl
@[simp] theorem hostReset_params (s : State) : (s.hostReset).params = (State.resetOf s.cfg).params := rfl
@[simp] theorem hostReset_keys (s : State) : (s.hostReset).keys = (State.resetOf s.cfg).keys := rfl
@[simp] theorem hostReset_consts (s : State) : (s.hostReset).consts = (State.resetOf s.cfg).consts := rfl
@[simp] theorem hostReset_f (s : State) : (s.hostReset).f = (State.resetOf s.cfg).f := rfl
@[simp] theorem hostReset_pt (s : State) : (s.hostReset).pt = (State.resetOf s.cfg).pt := rfl
@[simp] theorem hostReset_flags (s : State) : (s.hostReset).flags = (State.resetOf s.cfg).flags := rfl
@[simp] theorem hostReset_status (s : State) : (s.hostReset).status = (State.resetOf s.cfg).status := rfl
@[simp] theorem hostReset_ctrl (s : State) : (s.hostReset).ctrl = (State.resetOf s.cfg).ctrl := rfl
@[simp] theorem hostReset_regs (s : State) : (s.hostReset).regs = (State.resetOf s.cfg).regs := rfl
@[simp] theorem hostReset_phase (s : State) : (s.hostReset).phase = (State.resetOf s.cfg).phase := rfl
@[simp] theorem hostReset_mem (s : State) : (s.hostReset).mem = (State.resetOf s.cfg).mem := rfl
@[simp] theorem hostReset_scratch (s : State) : (s.hostReset).scratch = (State.resetOf s.cfg).scratch := rfl
@[simp] theorem hostReset_turns (s : State) : (s.hostReset).turns = s.turns := rfl
@[simp] theorem hostReset_reply (s : State) : (s.hostReset).reply = (State.resetOf s.cfg).reply := rfl
@[simp] theorem hostReset_freeCtr (s : State) : (s.hostReset).freeCtr = s.nextRequest := rfl

/-! ## The accessors -/

@[simp] theorem getF_setF_same (s : State) (r : FReg) (v : Nat) : (s.setF r v).getF r = v := by
  show (s.f.set r.val v r.isLt)[r.val] = v
  simp

theorem getF_setF_other (s : State) (r q : FReg) (v : Nat) (h : q ≠ r) : (s.setF r v).getF q = s.getF q := by
  have h' : r.val ≠ q.val := fun e => h (Fin.ext e.symm)
  show (s.f.set r.val v r.isLt)[q.val] = s.f[q.val]
  simp [h']

@[simp] theorem getPt_setPt_same (s : State) (j : PReg) (T : Triple) : (s.setPt j T).getPt j = T := by
  show (s.pt.set j.val T j.isLt)[j.val] = T
  simp

theorem getPt_setPt_other (s : State) (j k : PReg) (T : Triple) (h : k ≠ j) : (s.setPt j T).getPt k = s.getPt k := by
  have h' : j.val ≠ k.val := fun e => h (Fin.ext e.symm)
  show (s.pt.set j.val T j.isLt)[k.val] = s.pt[k.val]
  simp [h']

@[simp] theorem getF_complete (s : State) (r : FReg) : s.complete.getF r = s.getF r := rfl
@[simp] theorem getF_raise (s : State) (F : CmdFault) (r : FReg) : (s.raise F).getF r = s.getF r := rfl
@[simp] theorem getF_setCursor (s : State) (c : Cursor) (r : FReg) : (s.setCursor c).getF r = s.getF r := rfl
@[simp] theorem getPt_complete (s : State) (j : PReg) : s.complete.getPt j = s.getPt j := rfl
@[simp] theorem getPt_raise (s : State) (F : CmdFault) (j : PReg) : (s.raise F).getPt j = s.getPt j := rfl

/-! ## What is read from the schedule's remainder is what is read from the state -/

@[simp] theorem withTurns_fetch (s : State) (l : List Turn) : ({ s with turns := l } : State).fetch = s.fetch := rfl
@[simp] theorem acceptWord_fetch (s : State) (w : Word) : (s.acceptWord w).fetch = w := rfl
@[simp] theorem acceptWord_busy (s : State) (w : Word) : (s.acceptWord w).status.busy = true := rfl
@[simp] theorem acceptWord_cmd (s : State) (w : Word) : (s.acceptWord w).scratch.cmd = w := rfl

end Sys2Proof.Machine.State
end

