-- ==== Sys2Proof/Laws/Ops.lean ====
section
/-! SUPPORT. What a list of checks can come to, said once: the first failing check decides (60_exceptions.md R263), and a
guarded command either ends in its fault with nothing else changed or goes on. Provers cite these and leave `guarded`
folded. -/

namespace Sys2Proof.Machine

@[simp] theorem firstFault_nil : firstFault [] = none := rfl

theorem firstFault_cons_bad (F : CmdFault) (rest : List (Bool × CmdFault)) :
    firstFault ((true, F) :: rest) = some F := rfl

theorem firstFault_cons_good (F : CmdFault) (rest : List (Bool × CmdFault)) :
    firstFault ((false, F) :: rest) = firstFault rest := rfl

/-- The fault reported is one of the list whose condition holds. -/
theorem firstFault_mem {l : List (Bool × CmdFault)} {F : CmdFault} (h : firstFault l = some F) : (true, F) ∈ l := by
  induction l with
  | nil => simp at h
  | cons c rest ih =>
    obtain ⟨b, G⟩ := c
    cases b
    · exact List.mem_cons_of_mem _ (ih h)
    · simp only [firstFault, if_true, Option.some.injEq] at h
      simp [h]

/-- No fault is reported exactly when no condition holds. -/
theorem firstFault_eq_none {l : List (Bool × CmdFault)} : firstFault l = none ↔ ∀ c ∈ l, c.1 = false := by
  induction l with
  | nil => simp
  | cons c rest ih =>
    obtain ⟨b, G⟩ := c
    cases b <;> simp [firstFault, ih]

namespace State

theorem guarded_of_fault {s k : State} {l : List (Bool × CmdFault)} {F : CmdFault} (h : firstFault l = some F) :
    s.guarded l k = s.raise F := by simp [guarded, h]

theorem guarded_of_none {s k : State} {l : List (Bool × CmdFault)} (h : firstFault l = none) :
    s.guarded l k = k := by simp [guarded, h]

/-- Everything a guarded command can do. -/
theorem guarded_cases (s k : State) (l : List (Bool × CmdFault)) :
    (firstFault l = none ∧ s.guarded l k = k) ∨
      ∃ F, firstFault l = some F ∧ (true, F) ∈ l ∧ s.guarded l k = s.raise F := by
  cases h : firstFault l with
  | none => exact .inl ⟨rfl, guarded_of_none h⟩
  | some F => exact .inr ⟨F, rfl, firstFault_mem h, guarded_of_fault h⟩

end State
end Sys2Proof.Machine
end

