-- ==== Sys2Proof/Laws/Engine.lean ====
section
/-! SUPPORT. What a draw can come to (45_engine.md R231), and what the two failing exits of the engine do to each field of
the state (R235, R245). -/

namespace Sys2Proof.Machine

/-- Everything a draw can do: the test source delivers and moves on, or refuses and stays; the production source answers
or refuses, and its next request is another one. -/
theorem State.drawFrom_cases (P : Ports) (s : State) (c : Cursor) :
    (s.testrng = true ∧ c.rngpos.toNat + s.cfg.flen ≤ s.regs.rnglen.toNat ∧
      s.drawFrom P c = (some (os2ip (s.mem.readBytes (Buffer.rngbuf.base + c.rngpos.toNat) s.cfg.flen)),
        { c with rngpos := BitVec.ofNat 9 (c.rngpos.toNat + s.cfg.flen) })) ∨
    (s.testrng = true ∧ s.regs.rnglen.toNat < c.rngpos.toNat + s.cfg.flen ∧ s.drawFrom P c = (none, c)) ∨
    (s.testrng = false ∧
      s.drawFrom P c = ((P.rng c.freeCtr s.cfg.flen).map os2ip, { c with freeCtr := c.freeCtr + 1 })) := by
  cases ht : s.testrng
  · exact .inr (.inr ⟨rfl, by simp [drawFrom, ht]⟩)
  · by_cases h : c.rngpos.toNat + s.cfg.flen ≤ s.regs.rnglen.toNat
    · exact .inl ⟨rfl, h, by simp [drawFrom, ht, h]⟩
    · exact .inr (.inl ⟨rfl, by omega, by simp [drawFrom, ht, h]⟩)

/-- The free ports keep the contracts of the ports. -/
theorem Ports.free_lawful : Ports.free.Lawful := by
  refine ⟨fun h d s => by simp [Ports.free], fun c n s h => ?_⟩
  simp only [Ports.free] at h
  split at h
  · simp at h
  · simp only [Option.some.injEq] at h
    rw [← h]
    simp

/-! ## encryptFail -/

@[simp] theorem encryptFail_cfg (s : State) (n : Nat) (F : CmdFault) : (encryptFail s n F).cfg = s.cfg := rfl
@[simp] theorem encryptFail_params (s : State) (n : Nat) (F : CmdFault) : (encryptFail s n F).params = s.params := rfl
@[simp] theorem encryptFail_keys (s : State) (n : Nat) (F : CmdFault) : (encryptFail s n F).keys = s.keys := rfl
@[simp] theorem encryptFail_consts (s : State) (n : Nat) (F : CmdFault) : (encryptFail s n F).consts = s.consts := rfl
@[simp] theorem encryptFail_f (s : State) (n : Nat) (F : CmdFault) : (encryptFail s n F).f = s.f := rfl
@[simp] theorem encryptFail_pt (s : State) (n : Nat) (F : CmdFault) : (encryptFail s n F).pt = s.pt := rfl
@[simp] theorem encryptFail_flags (s : State) (n : Nat) (F : CmdFault) : (encryptFail s n F).flags = s.flags := rfl
@[simp] theorem encryptFail_status (s : State) (n : Nat) (F : CmdFault) :
    (encryptFail s n F).status = { s.status with busy := false, done := true, err := true } := rfl
@[simp] theorem encryptFail_ctrl (s : State) (n : Nat) (F : CmdFault) : (encryptFail s n F).ctrl = s.ctrl := rfl
@[simp] theorem encryptFail_regs (s : State) (n : Nat) (F : CmdFault) :
    (encryptFail s n F).regs = { s.regs with errcode := F.code, att := BitVec.ofNat 8 n, reclen := 0 } := rfl
@[simp] theorem encryptFail_phase (s : State) (n : Nat) (F : CmdFault) : (encryptFail s n F).phase = .idle := rfl
@[simp] theorem encryptFail_mem (s : State) (n : Nat) (F : CmdFault) :
    (encryptFail s n F).mem = s.mem.clear Buffer.record.base s.cfg.recCap := rfl
@[simp] theorem encryptFail_scratch (s : State) (n : Nat) (F : CmdFault) : (encryptFail s n F).scratch = .zero := rfl
@[simp] theorem encryptFail_turns (s : State) (n : Nat) (F : CmdFault) : (encryptFail s n F).turns = s.turns := rfl
@[simp] theorem encryptFail_reply (s : State) (n : Nat) (F : CmdFault) : (encryptFail s n F).reply = s.reply := rfl
@[simp] theorem encryptFail_freeCtr (s : State) (n : Nat) (F : CmdFault) :
    (encryptFail s n F).freeCtr = s.freeCtr := rfl

/-! ## decryptFail -/

@[simp] theorem decryptFail_cfg (s : State) (F : CmdFault) : (decryptFail s F).cfg = s.cfg := rfl
@[simp] theorem decryptFail_params (s : State) (F : CmdFault) : (decryptFail s F).params = s.params := rfl
@[simp] theorem decryptFail_keys (s : State) (F : CmdFault) : (decryptFail s F).keys = s.keys := rfl
@[simp] theorem decryptFail_consts (s : State) (F : CmdFault) : (decryptFail s F).consts = s.consts := rfl
@[simp] theorem decryptFail_f (s : State) (F : CmdFault) : (decryptFail s F).f = s.f := rfl
@[simp] theorem decryptFail_pt (s : State) (F : CmdFault) : (decryptFail s F).pt = s.pt := rfl
@[simp] theorem decryptFail_flags (s : State) (F : CmdFault) : (decryptFail s F).flags = s.flags := rfl
@[simp] theorem decryptFail_status (s : State) (F : CmdFault) :
    (decryptFail s F).status = { s.status with busy := false, done := true, err := true } := rfl
@[simp] theorem decryptFail_ctrl (s : State) (F : CmdFault) : (decryptFail s F).ctrl = s.ctrl := rfl
@[simp] theorem decryptFail_regs (s : State) (F : CmdFault) :
    (decryptFail s F).regs = { s.regs with errcode := F.code, msglen := 0 } := rfl
@[simp] theorem decryptFail_phase (s : State) (F : CmdFault) : (decryptFail s F).phase = .idle := rfl
@[simp] theorem decryptFail_mem (s : State) (F : CmdFault) :
    (decryptFail s F).mem = s.mem.clear Buffer.msg.base s.cfg.msgCap := rfl
@[simp] theorem decryptFail_scratch (s : State) (F : CmdFault) : (decryptFail s F).scratch = .zero := rfl
@[simp] theorem decryptFail_turns (s : State) (F : CmdFault) : (decryptFail s F).turns = s.turns := rfl
@[simp] theorem decryptFail_reply (s : State) (F : CmdFault) : (decryptFail s F).reply = s.reply := rfl
@[simp] theorem decryptFail_freeCtr (s : State) (F : CmdFault) : (decryptFail s F).freeCtr = s.freeCtr := rfl

end Sys2Proof.Machine
end

