-- ==== Sys2Proof/Laws/PerInstr.lean ====
section
/-! SUPPORT. Statements about every command as syntax, one lemma per constructor. Family `WordShape`: the word of a
well-formed command selects a row of the opcode table (30_encoding.md R104): its opcode is the row's, and every bit the
row's mask covers is the row's bit. -/

namespace Sys2Proof.Laws.WordShape

open Sys2Proof

/-- The word of a well-formed command selects a row of R104's table. -/
def Statement (i : Instr) : Prop := i.wellFormed = true → ∃ r ∈ Spec.opcodeTable, r.selects (encode i) = true

theorem freg_and_zero (r : FReg) : ofFreg r &&& 0 = 0 := by revert r; decide
theorem preg_and_zero (r : PReg) : ofPreg r &&& 0xC = 0 := by revert r; decide

/-- A row without a further condition is selected when the masked word is its pattern. -/
theorem selects_free {m p w : Word} (h : w &&& m = p) : Spec.TableRow.selects ⟨p, m, .free⟩ w = true := by
  simp [Spec.TableRow.selects, h]


theorem nop : Statement Instr.nop := by
  intro _; decide

theorem setup : Statement Instr.setup := by
  intro _; decide

theorem zeroize : Statement Instr.zeroize := by
  intro _; decide

theorem modadd (rd ra rb : FReg) : Statement (Instr.modadd rd ra rb) := by
  intro _
  refine ⟨⟨0x10000000, 0xFF000FFF, .free⟩, by decide, selects_free ?_⟩
  have : (0xFF000FFF : Word) = wordOf 0xFF 0x0 0x0 0x0 0xFFF := by decide
  rw [this, encode, wordOf_and]
  simp only [freg_and_zero]
  decide

theorem modsub (rd ra rb : FReg) : Statement (Instr.modsub rd ra rb) := by
  intro _
  refine ⟨⟨0x11000000, 0xFF000FFF, .free⟩, by decide, selects_free ?_⟩
  have : (0xFF000FFF : Word) = wordOf 0xFF 0x0 0x0 0x0 0xFFF := by decide
  rw [this, encode, wordOf_and]
  simp only [freg_and_zero]
  decide

theorem modmul (rd ra rb : FReg) : Statement (Instr.modmul rd ra rb) := by
  intro _
  refine ⟨⟨0x12000000, 0xFF000FFF, .free⟩, by decide, selects_free ?_⟩
  have : (0xFF000FFF : Word) = wordOf 0xFF 0x0 0x0 0x0 0xFFF := by decide
  rw [this, encode, wordOf_and]
  simp only [freg_and_zero]
  decide

theorem modsqr (rd ra : FReg) : Statement (Instr.modsqr rd ra) := by
  intro _
  refine ⟨⟨0x13000000, 0xFF00FFFF, .free⟩, by decide, selects_free ?_⟩
  have : (0xFF00FFFF : Word) = wordOf 0xFF 0x0 0x0 0xF 0xFFF := by decide
  rw [this, encode, wordOf_and]
  simp only [freg_and_zero]
  decide

theorem montmul (rd ra rb : FReg) : Statement (Instr.montmul rd ra rb) := by
  intro _
  refine ⟨⟨0x14000000, 0xFF000FFF, .free⟩, by decide, selects_free ?_⟩
  have : (0xFF000FFF : Word) = wordOf 0xFF 0x0 0x0 0x0 0xFFF := by decide
  rw [this, encode, wordOf_and]
  simp only [freg_and_zero]
  decide

theorem tomont (rd ra : FReg) : Statement (Instr.tomont rd ra) := by
  intro _
  refine ⟨⟨0x15000000, 0xFF00FFFF, .free⟩, by decide, selects_free ?_⟩
  have : (0xFF00FFFF : Word) = wordOf 0xFF 0x0 0x0 0xF 0xFFF := by decide
  rw [this, encode, wordOf_and]
  simp only [freg_and_zero]
  decide

theorem frommont (rd ra : FReg) : Statement (Instr.frommont rd ra) := by
  intro _
  refine ⟨⟨0x16000000, 0xFF00FFFF, .free⟩, by decide, selects_free ?_⟩
  have : (0xFF00FFFF : Word) = wordOf 0xFF 0x0 0x0 0xF 0xFFF := by decide
  rw [this, encode, wordOf_and]
  simp only [freg_and_zero]
  decide

theorem modred (rd ra rb : FReg) : Statement (Instr.modred rd ra rb) := by
  intro _
  refine ⟨⟨0x17000000, 0xFF000FFF, .free⟩, by decide, selects_free ?_⟩
  have : (0xFF000FFF : Word) = wordOf 0xFF 0x0 0x0 0x0 0xFFF := by decide
  rw [this, encode, wordOf_and]
  simp only [freg_and_zero]
  decide

theorem modinv (rd ra : FReg) : Statement (Instr.modinv rd ra) := by
  intro _
  refine ⟨⟨0x18000000, 0xFF00FFFF, .free⟩, by decide, selects_free ?_⟩
  have : (0xFF00FFFF : Word) = wordOf 0xFF 0x0 0x0 0xF 0xFFF := by decide
  rw [this, encode, wordOf_and]
  simp only [freg_and_zero]
  decide

theorem cmp (ra rb : FReg) : Statement (Instr.cmp ra rb) := by
  intro _
  refine ⟨⟨0x19000000, 0xFFF00FFF, .free⟩, by decide, selects_free ?_⟩
  have : (0xFFF00FFF : Word) = wordOf 0xFF 0xF 0x0 0x0 0xFFF := by decide
  rw [this, encode, wordOf_and]
  simp only [freg_and_zero]
  decide

theorem mov (rd ra : FReg) : Statement (Instr.mov rd ra) := by
  intro _
  refine ⟨⟨0x1A000000, 0xFF00FFFF, .free⟩, by decide, selects_free ?_⟩
  have : (0xFF00FFFF : Word) = wordOf 0xFF 0x0 0x0 0xF 0xFFF := by decide
  rw [this, encode, wordOf_and]
  simp only [freg_and_zero]
  decide

theorem ldi (rd : FReg) (imm : BitVec 16) : Statement (Instr.ldi rd imm) := by
  intro _
  refine ⟨⟨0x1B000000, 0xFF0F0000, .free⟩, by decide, selects_free ?_⟩
  have : (0xFF0F0000 : Word) = wordOfImm 0xFF 0 0xF 0 := by decide
  rw [this, encode, wordOfImm_and, freg_and_zero]
  simp
  decide

theorem pdbl (rd ra : PReg) : Statement (Instr.pdbl rd ra) := by
  intro _
  refine ⟨⟨0x20000000, 0xFFCCFFFF, .free⟩, by decide, selects_free ?_⟩
  have : (0xFFCCFFFF : Word) = wordOf 0xFF 0xC 0xC 0xF 0xFFF := by decide
  rw [this, encode, wordOf_and]
  simp only [preg_and_zero]
  decide

theorem padd (rd ra rb : PReg) : Statement (Instr.padd rd ra rb) := by
  intro _
  refine ⟨⟨0x21000000, 0xFFCCCFFF, .free⟩, by decide, selects_free ?_⟩
  have : (0xFFCCCFFF : Word) = wordOf 0xFF 0xC 0xC 0xC 0xFFF := by decide
  rw [this, encode, wordOf_and]
  simp only [preg_and_zero]
  decide

theorem paff (rd ra : PReg) : Statement (Instr.paff rd ra) := by
  intro _
  refine ⟨⟨0x22000000, 0xFFCCFFFF, .free⟩, by decide, selects_free ?_⟩
  have : (0xFFCCFFFF : Word) = wordOf 0xFF 0xC 0xC 0xF 0xFFF := by decide
  rw [this, encode, wordOf_and]
  simp only [preg_and_zero]
  decide

theorem peq (ra rb : PReg) : Statement (Instr.peq ra rb) := by
  intro _
  refine ⟨⟨0x23000000, 0xFFFCCFFF, .free⟩, by decide, selects_free ?_⟩
  have : (0xFFFCCFFF : Word) = wordOf 0xFF 0xF 0xC 0xC 0xFFF := by decide
  rw [this, encode, wordOf_and]
  simp only [preg_and_zero]
  decide

theorem pisinf (ra : PReg) : Statement (Instr.pisinf ra) := by
  intro _
  refine ⟨⟨0x24000000, 0xFFFCFFFF, .free⟩, by decide, selects_free ?_⟩
  have : (0xFFFCFFFF : Word) = wordOf 0xFF 0xF 0xC 0xF 0xFFF := by decide
  rw [this, encode, wordOf_and]
  simp only [preg_and_zero]
  decide

theorem psetinf (rd : PReg) : Statement (Instr.psetinf rd) := by
  intro _
  refine ⟨⟨0x25000000, 0xFFCFFFFF, .free⟩, by decide, selects_free ?_⟩
  have : (0xFFCFFFFF : Word) = wordOf 0xFF 0xC 0xF 0xF 0xFFF := by decide
  rw [this, encode, wordOf_and]
  simp only [preg_and_zero]
  decide

theorem pldg (rd : PReg) : Statement (Instr.pldg rd) := by
  intro _
  refine ⟨⟨0x26000000, 0xFFCFFFFF, .free⟩, by decide, selects_free ?_⟩
  have : (0xFFCFFFFF : Word) = wordOf 0xFF 0xC 0xF 0xF 0xFFF := by decide
  rw [this, encode, wordOf_and]
  simp only [preg_and_zero]
  decide

theorem pldq (rd : PReg) : Statement (Instr.pldq rd) := by
  intro _
  refine ⟨⟨0x27000000, 0xFFCFFFFF, .free⟩, by decide, selects_free ?_⟩
  have : (0xFFCFFFFF : Word) = wordOf 0xFF 0xC 0xF 0xF 0xFFF := by decide
  rw [this, encode, wordOf_and]
  simp only [preg_and_zero]
  decide

theorem pmov (rd ra : PReg) : Statement (Instr.pmov rd ra) := by
  intro _
  refine ⟨⟨0x28000000, 0xFFCCFFFF, .free⟩, by decide, selects_free ?_⟩
  have : (0xFFCCFFFF : Word) = wordOf 0xFF 0xC 0xC 0xF 0xFFF := by decide
  rw [this, encode, wordOf_and]
  simp only [preg_and_zero]
  decide

theorem pset (rd : PReg) (ra rb : FReg) : Statement (Instr.pset rd ra rb) := by
  intro _
  refine ⟨⟨0x29000000, 0xFFC00FFF, .free⟩, by decide, selects_free ?_⟩
  have : (0xFFC00FFF : Word) = wordOf 0xFF 0xC 0x0 0x0 0xFFF := by decide
  rw [this, encode, wordOf_and]
  simp only [freg_and_zero, preg_and_zero]
  decide

theorem pget (rd : FReg) (ra : PReg) (sel : Coord) : Statement (Instr.pget rd ra sel) := by
  intro _
  exact ⟨⟨0x2A000000, 0xFF0CCFFF, .selNotThree⟩, by decide, by revert rd ra; cases sel <;> decide⟩

theorem onc (ra rb : FReg) : Statement (Instr.onc ra rb) := by
  intro _
  refine ⟨⟨0x2B000000, 0xFFF00FFF, .free⟩, by decide, selects_free ?_⟩
  have : (0xFFF00FFF : Word) = wordOf 0xFF 0xF 0x0 0x0 0xFFF := by decide
  rw [this, encode, wordOf_and]
  simp only [freg_and_zero]
  decide

theorem pmul (rd ra : PReg) (rb : FReg) : Statement (Instr.pmul rd ra rb) := by
  intro _
  refine ⟨⟨0x30000000, 0xFFCC0FFF, .free⟩, by decide, selects_free ?_⟩
  have : (0xFFCC0FFF : Word) = wordOf 0xFF 0xC 0xC 0x0 0xFFF := by decide
  rw [this, encode, wordOf_and]
  simp only [freg_and_zero, preg_and_zero]
  decide

theorem schk (ra : FReg) : Statement (Instr.schk ra) := by
  intro _
  refine ⟨⟨0x31000000, 0xFFF0FFFF, .free⟩, by decide, selects_free ?_⟩
  have : (0xFFF0FFFF : Word) = wordOf 0xFF 0xF 0x0 0xF 0xFFF := by decide
  rw [this, encode, wordOf_and]
  simp only [freg_and_zero]
  decide

theorem kdf : Statement Instr.kdf := by
  intro _; decide

theorem renc (ra rb : FReg) : Statement (Instr.renc ra rb) := by
  intro _
  refine ⟨⟨0x50000000, 0xFFF00FFF, .free⟩, by decide, selects_free ?_⟩
  have : (0xFFF00FFF : Word) = wordOf 0xFF 0xF 0x0 0x0 0xFFF := by decide
  rw [this, encode, wordOf_and]
  simp only [freg_and_zero]
  decide

theorem rdec (rd ra : FReg) : Statement (Instr.rdec rd ra) := by
  intro h
  exact ⟨⟨0x51000000, 0xFF00FFFF, .rdNotRa⟩, by decide, by revert rd ra; decide⟩

theorem ctsize : Statement Instr.ctsize := by
  intro _; decide

theorem ptsize : Statement Instr.ptsize := by
  intro _; decide

theorem encrypt : Statement Instr.encrypt := by
  intro _; decide

theorem decrypt : Statement Instr.decrypt := by
  intro _; decide

theorem draw (rd : FReg) : Statement (Instr.draw rd) := by
  intro _
  refine ⟨⟨0x62000000, 0xFF0FFFFF, .free⟩, by decide, selects_free ?_⟩
  have : (0xFF0FFFFF : Word) = wordOf 0xFF 0x0 0xF 0xF 0xFFF := by decide
  rw [this, encode, wordOf_and]
  simp only [freg_and_zero]
  decide

end Sys2Proof.Laws.WordShape
end

