-- ==== Sys2Proof/Laws/Step.lean ====
section
/-! SUPPORT. What one step can do, said once (`step_cases`), that every command answers, and that the sequencer touches
nothing but PHASE and the scratch. -/

namespace Sys2Proof.Machine

/-- Every command answers with a next state: no meaning stops. -/
theorem exec_answers (i : Instr) (s : State) : ∃ t, exec i s = .next t := by
  cases i <;> exact ⟨_, rfl⟩

/-- Everything a step can do, with `rest` the schedule after it. -/
theorem step_cases {s t : State} (h : step s = .next t) :
    ∃ rest, rest = s.turns.tail ∧
      (((s.turns = [] ∨ s.turns = .core :: rest) ∧
          ((s.status.busy = false ∧ t = { s with turns := rest }) ∨
           (s.status.busy = true ∧ ∃ i, decode s.fetch = .ok i ∧ exec i { s with turns := rest } = .next t) ∨
           (s.status.busy = true ∧ ∃ e, decode s.fetch = .error e ∧
             t = ({ s with turns := rest } : State).raise .illegalCommand))) ∨
       (s.turns = .phase :: rest ∧ t = seqAdvance .free { s with turns := rest }) ∨
       ∃ a, s.turns = .host a :: rest ∧ t = ({ s with turns := rest } : State).hostAccess a) := by
  have core : ∀ rest, coreMove { s with turns := rest } = .next t →
      (s.status.busy = false ∧ t = { s with turns := rest }) ∨
      (s.status.busy = true ∧ ∃ i, decode s.fetch = .ok i ∧ exec i { s with turns := rest } = .next t) ∨
      (s.status.busy = true ∧ ∃ e, decode s.fetch = .error e ∧
        t = ({ s with turns := rest } : State).raise .illegalCommand) := by
    intro rest h
    simp only [coreMove, runCommand, State.withTurns_fetch] at h
    cases hb : s.status.busy with
    | false => simp only [hb, Bool.false_eq_true, if_false, Host.Outcome.next.injEq] at h; exact .inl ⟨rfl, h.symm⟩
    | true =>
      simp only [hb, if_true] at h
      cases hd : decode s.fetch with
      | ok i => rw [hd] at h; exact .inr (.inl ⟨rfl, i, rfl, h⟩)
      | error e =>
        rw [hd] at h
        simp only [Host.Outcome.next.injEq] at h
        exact .inr (.inr ⟨rfl, e, rfl, h.symm⟩)
  cases ht : s.turns with
  | nil =>
    simp only [step, ht] at h
    have hs : ({ s with turns := [] } : State) = s := by rw [← ht]
    exact ⟨[], rfl, .inl ⟨.inl rfl, core [] (by rw [hs]; exact h)⟩⟩
  | cons m rest =>
    simp only [step, ht] at h
    cases m with
    | core => exact ⟨rest, rfl, .inl ⟨.inr rfl, core rest h⟩⟩
    | phase =>
      simp only [Host.Outcome.next.injEq] at h
      exact ⟨rest, rfl, .inr (.inl ⟨rfl, h.symm⟩)⟩
    | host a =>
      simp only [Host.Outcome.next.injEq] at h
      exact ⟨rest, rfl, .inr (.inr ⟨a, rfl, h.symm⟩)⟩

/-- The core's move answers with a next state. -/
theorem coreMove_answers (s : State) : ∃ t, coreMove s = .next t := by
  cases hb : s.status.busy
  · exact ⟨s, by simp [coreMove, hb]⟩
  · cases hd : decode s.fetch with
    | ok i => simpa [coreMove, runCommand, hb, hd] using exec_answers i s
    | error e => exact ⟨s.raise .illegalCommand, by simp [coreMove, runCommand, hb, hd]⟩

/-- Every step answers with a next state. -/
theorem step_answers (s : State) : ∃ t, step s = .next t := by
  match ht : s.turns with
  | [] => simpa [step, ht] using coreMove_answers s
  | .core :: rest => simpa [step, ht] using coreMove_answers { s with turns := rest }
  | .phase :: rest => exact ⟨seqAdvance .free { s with turns := rest }, by simp [step, ht]⟩
  | .host a :: rest => exact ⟨({ s with turns := rest } : State).hostAccess a, by simp [step, ht]⟩

/-! ## The sequencer's frame -/

theorem kdfDone_frame (s : State) (last : Phase) : ∃ ph c, kdfDone s last = { s with phase := ph, scratch := c } := by
  simp only [kdfDone]
  repeat' split
  all_goals exact ⟨_, _, rfl⟩

theorem kdfAdvance_frame (P : Ports) (s : State) : ∃ ph c, kdfAdvance P s = { s with phase := ph, scratch := c } := by
  simp only [kdfAdvance]
  repeat' split
  all_goals first | exact kdfDone_frame { s with scratch := _ } _ | exact ⟨_, _, rfl⟩

theorem encryptAdvance_frame (P : Ports) (s : State) :
    ∃ ph c, encryptAdvance P s = { s with phase := ph, scratch := c } := by
  simp only [encryptAdvance]
  repeat' split
  all_goals first | exact kdfAdvance_frame P s | exact ⟨_, _, rfl⟩

theorem decryptAdvance_frame (P : Ports) (s : State) :
    ∃ ph c, decryptAdvance P s = { s with phase := ph, scratch := c } := by
  simp only [decryptAdvance]
  repeat' split
  all_goals first | exact kdfAdvance_frame P s | exact ⟨_, _, rfl⟩

/-- The sequencer touches nothing but PHASE and the hidden scratch. -/
theorem seqAdvance_frame (P : Ports) (s : State) : ∃ ph c, seqAdvance P s = { s with phase := ph, scratch := c } := by
  simp only [seqAdvance]
  repeat' split
  all_goals first
    | exact encryptAdvance_frame P s
    | exact decryptAdvance_frame P s
    | exact kdfAdvance_frame P s
    | exact ⟨_, _, rfl⟩

end Sys2Proof.Machine
end

