-- ==== Sys2Proof/Tests/Slice0.lean ====
section
/-! SUPPORT. Tests. Expected values come from the spec: the words are written from 30_encoding.md R100 to R106, the results
are those of the rules' examples and of 95_test_vectors.md V4 to V10 (configuration TOY8 and the stand-in hash FNV1A32 of
V0). Then, for every statement with hypotheses, a witness that meets them, clause by clause. -/

namespace Sys2Proof.Tests

set_option Elab.async false

open Sys2Proof Sys2Proof.Machine

/-! ## Well-formedness and decoding -/

theorem test_wellFormed_refuses_rdec_same : (Instr.rdec 1 1).wellFormed = false := by decide
theorem test_wellFormed_accepts_rdec : (Instr.rdec 1 2).wellFormed = true := by decide

theorem test_decode_system : decode 0x00000000 = .ok .nop ∧ decode 0x01000000 = .ok .setup ∧
    decode 0x02000000 = .ok .zeroize := by decide
theorem test_decode_field : decode 0x10312000 = .ok (.modadd 3 1 2) ∧ decode 0x11312000 = .ok (.modsub 3 1 2) ∧
    decode 0x12312000 = .ok (.modmul 3 1 2) ∧ decode 0x13430000 = .ok (.modsqr 4 3) ∧
    decode 0x14312000 = .ok (.montmul 3 1 2) ∧ decode 0x15210000 = .ok (.tomont 2 1) ∧
    decode 0x16210000 = .ok (.frommont 2 1) ∧ decode 0x17FED000 = .ok (.modred 15 14 13) := by decide
theorem test_decode_field2 : decode 0x18210000 = .ok (.modinv 2 1) ∧ decode 0x19056000 = .ok (.cmp 5 6) ∧
    decode 0x1A210000 = .ok (.mov 2 1) ∧ decode 0x1B1000C8 = .ok (.ldi 1 200) ∧
    decode 0x1BF0FFFF = .ok (.ldi 15 0xFFFF) := by decide
theorem test_decode_point : decode 0x20100000 = .ok (.pdbl 1 0) ∧ decode 0x21210000 = .ok (.padd 2 1 0) ∧
    decode 0x22320000 = .ok (.paff 3 2) ∧ decode 0x23013000 = .ok (.peq 1 3) ∧ decode 0x24020000 = .ok (.pisinf 2) ∧
    decode 0x25300000 = .ok (.psetinf 3) ∧ decode 0x26000000 = .ok (.pldg 0) ∧
    decode 0x27100000 = .ok (.pldq 1) := by decide
theorem test_decode_point2 : decode 0x28120000 = .ok (.pmov 1 2) ∧ decode 0x293EF000 = .ok (.pset 3 14 15) ∧
    decode 0x2A220000 = .ok (.pget 2 2 .x) ∧ decode 0x2A221000 = .ok (.pget 2 2 .y) ∧
    decode 0x2AF32000 = .ok (.pget 15 3 .z) ∧ decode 0x2B011000 = .ok (.onc 1 1) ∧
    decode 0x30301000 = .ok (.pmul 3 0 1) ∧ decode 0x31010000 = .ok (.schk 1) := by decide
theorem test_decode_engine : decode 0x40000000 = .ok .kdf ∧ decode 0x50012000 = .ok (.renc 1 2) ∧
    decode 0x51120000 = .ok (.rdec 1 2) ∧ decode 0x52000000 = .ok .ctsize ∧ decode 0x53000000 = .ok .ptsize ∧
    decode 0x60000000 = .ok .encrypt ∧ decode 0x61000000 = .ok .decrypt ∧ decode 0x62100000 = .ok (.draw 1) := by decide

/-- V10: the illegal words, with the step of R103 that refuses each. -/
theorem test_decode_illegal : decode 0x03000000 = .error .unknownOpcode ∧ decode 0xFF000000 = .error .unknownOpcode ∧
    decode 0x00000001 = .error .mustBeZero ∧ decode 0x01100000 = .error .mustBeZero ∧
    decode 0x1B110000 = .error .mustBeZero ∧ decode 0x13431000 = .error .mustBeZero ∧
    decode 0x19156000 = .error .mustBeZero ∧ decode 0x12312001 = .error .mustBeZero ∧
    decode 0x62110000 = .error .mustBeZero := by decide
theorem test_decode_illegal2 : decode 0x21400000 = .error .pointRegister ∧
    decode 0x2A240000 = .error .pointRegister ∧ decode 0x30341000 = .error .pointRegister ∧
    decode 0x2A003000 = .error .selector ∧ decode 0x51110000 = .error .sameDestination := by decide

theorem test_encode_words : encode (.padd 2 1 0) = 0x21210000 ∧ encode (.ldi 1 200) = 0x1B1000C8 ∧
    encode (.pget 2 2 .y) = 0x2A221000 ∧ encode (.rdec 1 2) = 0x51120000 := by decide

/-! ## TOY8 -/

/-- Configuration TOY8 (95_test_vectors.md). -/
def toyCfg : Config :=
  { fieldBits := 8, limbBits := 8, dlen := [4], msgCap := 4096, recCap := 4178, testEn := true }

/-- The 19-byte record of R204, R237. -/
def toyRecord : List Byte :=
  [0x30, 0x11, 0x02, 0x01, 0x2C, 0x02, 0x01, 0x68, 0x04, 0x04, 0x7C, 0xC3, 0xBD, 0x44, 0x04, 0x03, 0x47, 0xFC, 0x4F]

/-- MSG = 68 69 21, REC the record, TAG its tag, SEED = 01 02, RNGBUF = 07 F0 00. -/
def toyMem : Memory :=
  (((((Memory.writeBytes [] 0x3000000 toyRecord).writeBytes 0x1000000 [0x68, 0x69, 0x21]).writeBytes 0xC00
    [0x7C, 0xC3, 0xBD, 0x44]).writeBytes 0xC80 [0x01, 0x02]).writeBytes 0xD00 [0x07, 0xF0, 0x00])

/-- TOY8 after SETUP (P = 251, A = 4, B = 3, G = (4, 121), N = 233, RR = 25, MU = 5, PINV0 = 205), Q = (15, 210), D = 90,
with some contents in the register files and the buffers. -/
def toy : State :=
  { State.resetOf toyCfg with
    params := { p := 251, a := 4, b := 3, gx := 4, gy := 121, n := 233, cof := 1 }
    keys := { qx := 15, qy := 210, d := 90 }
    consts := { rr := 25, mu := 5, pinv0 := 205 }
    f := #v[0, 200, 100, 255, 5, 7, 250, 2, 44, 104, 121, 4, 233, 3, 249, 1]
    pt := #v[⟨4, 121, 1⟩, ⟨48, 153, 242⟩, ⟨7, 9, 0⟩, ⟨252, 0, 1⟩]
    status := { busy := false, done := false, err := false, drop := false, pvalid := true }
    ctrl := { ieDone := false, ieErr := false, hsel := 0, noempty := false, testrng := true }
    regs := { errcode := 0, maxatt := 16, att := 0, msglen := 3, reclen := 19, outcap := 21, result := 0, seedlen := 2,
              kslen := 10, rnglen := 3, rngpos := 0 }
    mem := toyMem }

/-- TOY8 before SETUP. -/
def toyRaw : State := { toy with status := { toy.status with pvalid := false } }
/-- TOY8 with HSEL = 1, beyond NHASH = 1. -/
def toyNoHash : State := { toy with ctrl := { toy.ctrl with hsel := 1 } }

/-- The command answers a next state with this property. -/
def gives (i : Instr) (s : State) (ok : State → Bool) : Bool :=
  match exec i s with
  | .next t => ok t
  | _ => false

/-- The command ends in this fault. -/
def faults (i : Instr) (s : State) (F : CmdFault) : Bool := gives i s fun t => t.status.err && t.regs.errcode == F.code

/-! ## Field commands (V4) -/

theorem test_setup_constants : gives .setup { toyRaw with consts := ⟨0, 0, 0⟩ }
    (fun t => t.consts == ⟨25, 5, 205⟩ && t.status.pvalid && !t.status.err) = true := by decide +kernel
theorem test_setup_rejects_even : gives .setup { toy with params := { toy.params with p := 250 } }
    (fun t => t.regs.errcode == 3 && !t.status.pvalid && t.consts == ⟨25, 5, 205⟩) = true := by decide +kernel
theorem test_zeroize_clears : gives .zeroize toy (fun t => t.keys == ⟨15, 210, 0⟩ && t.getF 1 == 0 &&
    t.regs.msglen == 0 && t.regs.reclen == 19 && t.mem == Memory.writeBytes [] 0x3000000 toyRecord) = true := by
  decide +kernel
theorem test_modadd : gives (.modadd 3 1 2) toy (fun t => t.getF 3 == 49) = true := by decide +kernel
theorem test_modadd_wide_sum : gives (.modadd 3 6 6) toy (fun t => t.getF 3 == 249) = true := by decide +kernel
theorem test_modsub : gives (.modsub 3 13 4) toy (fun t => t.getF 3 == 249) = true := by decide +kernel
theorem test_modsub_order : gives (.modsub 0 2 1) toy (fun t => t.getF 0 == 151) = true := by decide +kernel
theorem test_modmul : gives (.modmul 3 1 2) toy (fun t => t.getF 3 == 171) = true := by decide +kernel
theorem test_modsqr : gives (.modsqr 1 1) toy (fun t => t.getF 1 == 91) = true := by decide +kernel
theorem test_montmul : gives (.montmul 3 1 2) toy (fun t => t.getF 3 == 235) = true := by decide +kernel
theorem test_montmul_narrow_digits : montMul 4 2 251 13 200 100 = 235 := by decide +kernel
theorem test_tomont : gives (.tomont 2 5) toy (fun t => t.getF 2 == 35) = true := by decide +kernel
theorem test_frommont : gives (.frommont 2 5) (toy.setF 5 102) (fun t => t.getF 2 == 171) = true := by decide +kernel
theorem test_modred_one_subtraction : gives (.modred 0 3 3) toy (fun t => t.getF 0 == 24) = true := by decide +kernel
theorem test_modred_high_then_low : gives (.modred 0 1 2) toy (fun t => t.getF 0 == 96) = true := by decide +kernel
theorem test_barrett_wide_remainder : barrettReduce 8 223 (65536 / 223 - 256) 58492 = 66 := by decide +kernel
theorem test_modinv : gives (.modinv 0 7) toy (fun t => t.getF 0 == 126) = true := by decide +kernel
theorem test_modinv_of_zero : faults (.modinv 1 0) toy .notInvertible = true := by decide +kernel
theorem test_cmp_below : gives (.cmp 2 1) toy (fun t => t.flags == ⟨false, true, false, false⟩) = true := by
  decide +kernel
theorem test_cmp_unreduced : gives (.cmp 3 4) { toyRaw with flags := ⟨true, true, true, true⟩ }
    (fun t => t.flags == ⟨false, false, true, true⟩) = true := by decide +kernel
theorem test_mov : gives (.mov 0 3) toyRaw (fun t => t.getF 0 == 255 && t.getF 3 == 255) = true := by decide +kernel
theorem test_ldi_drops_upper_byte : gives (.ldi 0 0x01C8) toyRaw (fun t => t.getF 0 == 200) = true := by decide +kernel
theorem test_operand_range : faults (.modadd 0 3 4) toy .operandRange = true ∧
    faults (.modadd 0 4 3) toy .operandRange = true := by decide +kernel

/-! ## Point commands (V5) -/

theorem test_pdbl : gives (.pdbl 1 0) toy (fun t => t.getPt 1 == ⟨48, 153, 242⟩) = true := by decide +kernel
theorem test_pdbl_infinite : gives (.pdbl 1 2) toy (fun t => t.getPt 1 == ⟨0, 0, 0⟩) = true := by decide +kernel
theorem test_padd : gives (.padd 2 1 0) toy (fun t => t.getPt 2 == ⟨26, 104, 26⟩) = true := by decide +kernel
theorem test_padd_same_point : gives (.padd 0 0 0) toy (fun t => t.getPt 0 == ⟨48, 153, 242⟩) = true := by decide +kernel
theorem test_padd_opposite : jadd 251 4 ⟨4, 121, 1⟩ ⟨4, 130, 1⟩ = ⟨0, 0, 0⟩ := by decide +kernel
theorem test_padd_infinite_left : jadd 251 4 ⟨7, 9, 0⟩ ⟨4, 121, 1⟩ = ⟨4, 121, 1⟩ := by decide +kernel
theorem test_paff : gives (.paff 1 1) toy (fun t => t.getPt 1 == ⟨233, 226, 1⟩) = true := by decide +kernel
theorem test_paff_infinite : faults (.paff 0 2) toy .pointAtInfinity = true := by decide +kernel
theorem test_peq_different : gives (.peq 1 0) { toy with flags := ⟨true, true, true, true⟩ }
    (fun t => t.flags == ⟨false, true, true, true⟩) = true := by decide +kernel
theorem test_peq_same : pointEq 251 ⟨26, 104, 26⟩ ⟨29, 101, 1⟩ = true := by decide +kernel
theorem test_pisinf : gives (.pisinf 2) toy (fun t => t.flags == ⟨false, false, true, false⟩) = true := by
  decide +kernel
theorem test_psetinf : gives (.psetinf 0) toy (fun t => t.getPt 0 == ⟨0, 0, 0⟩) = true := by decide +kernel
theorem test_pldg : gives (.pldg 3) toyRaw (fun t => t.getPt 3 == ⟨4, 121, 1⟩) = true := by decide +kernel
theorem test_pldq : gives (.pldq 3) toyRaw (fun t => t.getPt 3 == ⟨15, 210, 1⟩) = true := by decide +kernel
theorem test_pmov : gives (.pmov 0 3) toyRaw (fun t => t.getPt 0 == ⟨252, 0, 1⟩) = true := by decide +kernel
theorem test_pset : gives (.pset 0 3 4) toyRaw (fun t => t.getPt 0 == ⟨255, 5, 1⟩) = true := by decide +kernel
theorem test_pget : gives (.pget 2 1 .y) toyRaw (fun t => t.getF 2 == 153) = true := by decide +kernel
theorem test_pget_z : gives (.pget 2 1 .z) toyRaw (fun t => t.getF 2 == 242) = true := by decide +kernel
theorem test_onc : gives (.onc 11 10) toy (fun t => t.flags == ⟨false, false, false, true⟩) = true := by decide +kernel
theorem test_onc_unreduced : onCurve 251 4 3 252 3 = false ∧ onCurve 251 4 3 4 120 = false := by decide +kernel
theorem test_pmul : gives (.pmul 3 0 4) toy (fun t => t.getPt 3 == ⟨242, 101, 52⟩) = true := by decide +kernel
theorem test_pmul_by_order : gives (.pmul 3 0 12) toy (fun t => t.getPt 3 == ⟨0, 0, 0⟩) = true := by decide +kernel
theorem test_schk_order : faults (.schk 12) toyRaw .invalidScalar = true := by decide +kernel
theorem test_schk_one : gives (.schk 15) toyRaw (fun t => !t.status.err && t.status.done) = true := by decide +kernel

/-! ## KDF and record commands (V7, V8) -/

/-- FNV1A32 of V0, as an engine of any digest length, and a production source that answers AB .. AB. -/
def fnv (s : List Byte) : Nat := s.foldl (fun h b => (h ^^^ b.toNat) * 16777619 % 2 ^ 32) 0x811C9DC5
def toyPorts : Ports where
  hash _ d s := i2osp (fnv s) d
  rng _ n := some (List.replicate n 0xAB)

theorem toyPorts_lawful : toyPorts.Lawful :=
  ⟨fun _ _ _ => length_i2osp _ _, fun _ _ _ h => by cases h; simp⟩

theorem test_kdf : (kdfWith toyPorts toy).mem.readBytes 0x2000000 11 =
    [0x11, 0x70, 0x20, 0xBD, 0x0E, 0x70, 0x1C, 0x04, 0x0F, 0x70, 0x00] := by decide +kernel
theorem test_kdf_length : faults .kdf { toy with regs := { toy.regs with kslen := 4097 } } .invalidLength = true ∧
    faults .kdf { toy with regs := { toy.regs with seedlen := 129 } } .invalidLength = true := by decide +kernel
theorem test_renc : gives (.renc 8 9)
    { toy with mem := (toyMem.clear 0x3000000 4178).writeBytes 0x1000000 [0x47, 0xFC, 0x4F] }
    (fun t => t.mem.readBytes 0x3000000 20 == toyRecord ++ [0] && t.regs.reclen == 19) = true := by decide +kernel
theorem test_encode_pads : encodeRecord 1 0x7F 0x80 [0xAA, 0xBB, 0xCC, 0xDD] [] =
    [0x30, 0x0F, 0x02, 0x01, 0x7F, 0x02, 0x02, 0x00, 0x80, 0x04, 0x04, 0xAA, 0xBB, 0xCC, 0xDD, 0x04, 0x00] := by
  decide +kernel
theorem test_rdec : gives (.rdec 1 2) toy (fun t => t.getF 1 == 44 && t.getF 2 == 104 &&
    t.mem.readBytes 0xC00 5 == [0x7C, 0xC3, 0xBD, 0x44, 0x00] && t.mem.readBytes 0x1000000 3 == [0x47, 0xFC, 0x4F] &&
    t.regs.msglen == 3) = true := by decide +kernel
theorem test_rdec_negative : faults (.rdec 1 2) { toy with mem := toyMem.write 0x3000004 0xAC } .invalidEncoding = true ∧
    gives .ptsize { toy with mem := toyMem.write 0x3000004 0xAC } (fun t => t.regs.result == 3) = true := by
  decide +kernel
theorem test_decode_rejects_long_form : plainLen [0x30, 0x81, 0x0E, 0x02, 0x01, 0x2C, 0x02, 0x01, 0x68, 0x04, 0x04, 0x7C,
    0xC3, 0xBD, 0x44, 0x04, 0x00] 4 false = none := by decide +kernel
theorem test_decode_rejects_trailing : plainLen (toyRecord ++ [0]) 4 false = none := by decide +kernel
theorem test_ctsize : gives .ctsize toy (fun t => t.regs.result == 21) = true := by decide +kernel
theorem test_wcs_thresholds : wcs 32 32 127 = 236 ∧ wcs 32 32 128 = 238 ∧ wcs 32 64 4096 = 4240 ∧
    wcs 64 64 4096 = 4304 := by decide +kernel
theorem test_ptsize : gives .ptsize toy (fun t => t.regs.result == 3) = true := by decide +kernel

/-! ## The engine (V9) -/

/-- Row 1: RNGBUF = 00 F0 07. -/
def toyRow1 : State := { toy with mem := (toyMem.clear 0x3000000 4178).writeBytes 0xD00 [0x00, 0xF0, 0x07] }

theorem test_encrypt_row1 : (encryptWith toyPorts toyRow1).mem.readBytes 0x3000000 20 = toyRecord ++ [0] ∧
    (encryptWith toyPorts toyRow1).regs =
      { toy.regs with reclen := 19, att := 3, rngpos := 3 } := by decide +kernel
theorem test_decrypt_row12_row15 : (decryptWith toyPorts (toy.clearBuf .msg)).mem.readBytes 0x1000000 4 =
      [0x68, 0x69, 0x21, 0x00] ∧
    (decryptWith toyPorts { toy with mem := toyMem.write 0x3000012 0x4E }).regs =
      { toy.regs with errcode := 0x0A, msglen := 0 } := by decide +kernel
theorem test_draw_test_source : gives (.draw 0) toy (fun t => t.getF 0 == 7 && t.regs.rngpos == 1) = true := by
  decide +kernel
theorem test_draw_production : (drawWith toyPorts 0 { toy with ctrl := { toy.ctrl with testrng := false } }).getF 0 =
    171 := by decide +kernel

/-! ## Steps and the bus (V10) -/

theorem test_step_runs_fetched_word : (match step (State.reset.withFetchWord 32 0x1B1000C8) with
    | .next t => t.getF 1 == 200 && statusWord t == 0x002 | _ => false) = true := by decide +kernel
theorem test_step_illegal_word : (match step (toy.withFetchWord 32 0x2A003000) with
    | .next t => statusWord t == 0x016 && t.regs.errcode == 1 | _ => false) = true := by decide +kernel
theorem test_table_word : decodeTableWord 32 0x21210000 = some (.padd 2 1 0) ∧ decodeTableWord 32 0x21400000 = none := by
  decide
theorem test_config_word : configWord toyCfg = 0x00092008 ∧ configWord .cfg256 = 0x00028100 := by decide +kernel
theorem test_bus_record_bytes : toy.readIdle 0x3000000 = 0x30110201 ∧ toy.readIdle 0x3000010 = 0x47FC4F00 ∧
    toy.readIdle 0x300 = 0 ∧ toy.readIdle 0x280 = 0x0F000000 := by decide +kernel
theorem test_bus_write_clears_pvalid : ((toy.hostAccess (.write 0x100 4 0xFB000000)).status.pvalid = false ∧
    (toy.hostAccess (.write 0x240 4 0xE9000000)).status.pvalid = true) := by decide +kernel

/-! ## Witnesses: states and operands that meet the hypotheses of the statements, clause by clause -/

theorem toyCfg_legal : toyCfg.Legal := by decide +kernel

theorem toy_width : WidthInv toy := by
  refine ⟨fun r => ?_, by decide +kernel⟩
  cases r with
  | f r => revert r; decide +kernel
  | ptX j => revert j; decide +kernel
  | ptY j => revert j; decide +kernel
  | ptZ j => revert j; decide +kernel
  | _ => decide +kernel

theorem toy_params : ParamsInv toy := by intro _; decide +kernel

theorem toy_numbers : NumbersInv toy := ⟨toyCfg_legal, toy_width, toy_params⟩

theorem toy_memory : MemoryInv toy := ⟨toyCfg_legal, by decide +kernel, by decide +kernel⟩

theorem toy_idle : IdleInv toy := fun _ => ⟨rfl, rfl⟩
theorem toy_fault : FaultInv toy := by unfold FaultInv; decide +kernel
theorem toy_testSource : TestSourceInv toy := by unfold TestSourceInv; decide +kernel

theorem witness_SetupChecksAndComputesConstants :
    (toy.params.p % 2 = 1 ∧ 2 ^ (toy.cfg.fieldBits - 1) ≤ toy.params.p ∧ toy.params.a < toy.params.p ∧
      toy.params.b < toy.params.p ∧ toy.params.gx < toy.params.p ∧ toy.params.gy < toy.params.p ∧ WidthInv toy) ∧
    State.reset.params.p % 2 = 0 ∧
    ({ toy with params := { toy.params with p := 127 } } : State).params.p < 2 ^ (toy.cfg.fieldBits - 1) ∧
    ({ toy with params := { toy.params with a := 251 } } : State).params.a ≥ toy.params.p := by
  refine ⟨⟨?_, ?_, ?_, ?_, ?_, ?_, toy_width⟩, ?_, ?_, ?_⟩ <;> decide +kernel

/-- The clauses of the field commands: not ready; each operand out of range; all in range, zero and nonzero. -/
theorem witness_ModAddAndModSubAreExactResidues : toyRaw.status.pvalid = false ∧ toy.status.pvalid = true ∧
    toy.getF 3 ≥ toy.params.p ∧ toy.getF 6 < toy.params.p ∧ toy.getF 0 < toy.params.p := by decide +kernel
theorem witness_ModMulAndModSqrAreExactResidues : NumbersInv toy ∧ toyRaw.status.pvalid = false ∧
    toy.status.pvalid = true ∧ toy.getF 3 ≥ toy.params.p ∧ toy.getF 1 < toy.params.p ∧ toy.getF 2 < toy.params.p :=
  ⟨toy_numbers, by decide +kernel⟩
theorem witness_MontgomeryCommandsScaleByR : NumbersInv toy ∧ toyRaw.status.pvalid = false ∧
    toy.status.pvalid = true ∧ toy.getF 3 ≥ toy.params.p ∧ toy.getF 6 < toy.params.p ∧ toy.getF 0 < toy.params.p :=
  ⟨toy_numbers, by decide +kernel⟩
theorem witness_ModRedReducesDoubleWidth : NumbersInv toy ∧ toyRaw.status.pvalid = false ∧
    toy.status.pvalid = true := ⟨toy_numbers, by decide +kernel⟩
theorem witness_ModInvIsFermatPower : NumbersInv toy ∧ toy.params.p.Prime ∧ toyRaw.status.pvalid = false ∧
    toy.status.pvalid = true ∧ toy.getF 3 ≥ toy.params.p ∧ toy.getF 0 = 0 ∧ toy.getF 6 < toy.params.p ∧
    toy.getF 6 ≠ 0 :=
  ⟨toy_numbers, by show Nat.Prime 251; norm_num, by decide +kernel⟩

/-- pt[0] is affine, pt[1] has Z ≠ 1, pt[2] is infinite, pt[3].X is 252 ≥ P. -/
theorem toy_points : (toy.getPt 0).x < 251 ∧ (toy.getPt 0).y < 251 ∧ (toy.getPt 0).z = 1 ∧ (toy.getPt 1).x < 251 ∧
    (toy.getPt 1).y < 251 ∧ (toy.getPt 1).z < 251 ∧ (toy.getPt 1).z ≠ 0 ∧ (toy.getPt 2).x < 251 ∧
    (toy.getPt 2).y < 251 ∧ (toy.getPt 2).z = 0 ∧ (toy.getPt 3).x ≥ 251 ∧ toy.params.p = 251 ∧
    toy.status.pvalid = true ∧ toyRaw.status.pvalid = false := by decide +kernel
theorem witness_PdblWritesTheDoublingFormula : toyRaw.status.pvalid = false ∧ toy.status.pvalid = true ∧
    (toy.getPt 3).x ≥ toy.params.p ∧ (toy.getPt 1).x < toy.params.p ∧ (toy.getPt 1).y < toy.params.p ∧
    (toy.getPt 1).z < toy.params.p := by decide +kernel
theorem witness_PaddWritesTheAdditionFormula : toyRaw.status.pvalid = false ∧ toy.status.pvalid = true ∧
    (toy.getPt 3).x ≥ toy.params.p ∧ (toy.getPt 0).x < toy.params.p ∧ (toy.getPt 0).y < toy.params.p ∧
    (toy.getPt 0).z < toy.params.p ∧ (toy.getPt 1).x < toy.params.p ∧ (toy.getPt 1).y < toy.params.p ∧
    (toy.getPt 1).z < toy.params.p := by decide +kernel
theorem witness_PaffWritesTheAffinePoint : NumbersInv toy ∧ toyRaw.status.pvalid = false ∧ toy.status.pvalid = true ∧
    (toy.getPt 3).x ≥ toy.params.p ∧ (toy.getPt 2).z = 0 ∧ (toy.getPt 2).x < toy.params.p ∧
    (toy.getPt 1).z ≠ 0 ∧ (toy.getPt 1).x < toy.params.p ∧ (toy.getPt 1).y < toy.params.p ∧
    (toy.getPt 1).z < toy.params.p ∧ (toy.getPt 0).z = 1 := ⟨toy_numbers, by decide +kernel⟩
theorem witness_PeqComparesPoints : toyRaw.status.pvalid = false ∧ toy.status.pvalid = true ∧
    (toy.getPt 3).x ≥ toy.params.p ∧ (toy.getPt 2).x < toy.params.p ∧ (toy.getPt 2).y < toy.params.p ∧
    (toy.getPt 2).z < toy.params.p ∧ (toy.getPt 1).x < toy.params.p ∧ (toy.getPt 1).y < toy.params.p ∧
    (toy.getPt 1).z < toy.params.p := by decide +kernel
theorem witness_PisinfAndOncWriteTheirFlag : toyRaw.status.pvalid = false ∧ toy.status.pvalid = true := by
  decide +kernel
theorem witness_PmulDoublesAndAddsOverTheScalar : WidthInv toy ∧ toyRaw.status.pvalid = false ∧
    toy.status.pvalid = true ∧ (toy.getPt 3).x ≥ toy.params.p ∧ (toy.getPt 0).x < toy.params.p ∧
    (toy.getPt 0).y < toy.params.p ∧ (toy.getPt 0).z < toy.params.p ∧ toy.getF 0 = 0 ∧ (toy.getPt 2).z = 0 :=
  ⟨toy_width, by decide +kernel⟩
/-- SCHK: N − 1 passes, N and 0 fault. -/
theorem witness_SchkFaultsOutsideTheScalarRange : (1 ≤ toy.getF 15 ∧ toy.getF 15 ≤ toy.params.n - 1) ∧
    (1 ≤ (toy.setF 1 232).getF 1 ∧ (toy.setF 1 232).getF 1 ≤ toy.params.n - 1) ∧
    ¬(1 ≤ toy.getF 12 ∧ toy.getF 12 ≤ toy.params.n - 1) ∧ ¬(1 ≤ toy.getF 0 ∧ toy.getF 0 ≤ toy.params.n - 1) := by
  decide +kernel

/-! The KDF and record commands: HSEL = NHASH; a length one above the capacity; everything in range. -/

theorem witness_KdfStoresTheKeystream : MemoryInv toy ∧ toyNoHash.hsel ≥ toyNoHash.cfg.nhash ∧
    toy.hsel < toy.cfg.nhash ∧ toy.regs.seedlen.toNat ≤ 128 ∧ toy.regs.kslen.toNat ≤ toy.cfg.msgCap ∧
    (129 : BitVec 8).toNat > 128 ∧ (4097 : Word).toNat > toy.cfg.msgCap := ⟨toy_memory, by decide +kernel⟩
theorem witness_RencStoresTheRecord : MemoryInv toy ∧ toyNoHash.hsel ≥ toyNoHash.cfg.nhash ∧
    toy.hsel < toy.cfg.nhash ∧ toy.regs.msglen.toNat ≤ toy.cfg.msgCap ∧
    ({ toy with regs := { toy.regs with msglen := 4097 } } : State).regs.msglen.toNat > toy.cfg.msgCap :=
  ⟨toy_memory, by decide +kernel⟩
theorem witness_RdecWritesTheDecodedFields : MemoryInv toy ∧ (1 : FReg) ≠ 2 ∧
    toyNoHash.hsel ≥ toyNoHash.cfg.nhash ∧ toy.hsel < toy.cfg.nhash ∧ toy.regs.reclen.toNat ≤ toy.cfg.recCap ∧
    (4179 : Word).toNat > toy.cfg.recCap ∧
    decodeRecord toy.cfg.flen ((List.range toy.regs.reclen.toNat).map fun i => toy.mem.read (0x3000000 + i))
      (toy.cfg.digestLen toy.hsel) toy.ctrl.noempty =
        some ⟨0x2C, 0x68, [0x7C, 0xC3, 0xBD, 0x44], [0x47, 0xFC, 0x4F]⟩ ∧
    decodeRecord toy.cfg.flen [] (toy.cfg.digestLen toy.hsel) toy.ctrl.noempty = none ∧
    [0x47, 0xFC, 0x4F].length ≤ toy.cfg.msgCap ∧
    [0x47, 0xFC, 0x4F].length > ({ toy with cfg := { toyCfg with msgCap := 2 } } : State).cfg.msgCap :=
  ⟨toy_memory, by decide +kernel⟩
theorem witness_SizeCommandsWriteOnlyResult : toy.cfg.Legal ∧ toyNoHash.hsel ≥ toyNoHash.cfg.nhash ∧
    toy.hsel < toy.cfg.nhash ∧ toy.regs.reclen.toNat ≤ toy.cfg.recCap ∧ toy.regs.msglen.toNat ≤ toy.cfg.msgCap ∧
    (4179 : Word).toNat > toy.cfg.recCap ∧ (4097 : Word).toNat > toy.cfg.msgCap ∧
    plainLen ((List.range toy.regs.reclen.toNat).map fun i => toy.mem.read (0x3000000 + i))
      (toy.cfg.digestLen toy.hsel) toy.ctrl.noempty = some 3 ∧
    plainLen [] (toy.cfg.digestLen toy.hsel) toy.ctrl.noempty = none := ⟨toyCfg_legal, by decide +kernel⟩
/-- DRAW: the last byte of RNGBUF is still delivered, one byte further is not. -/
theorem witness_DrawDeliversOrFaults : toy.testrng = true ∧
    (2 : BitVec 9).toNat + toy.cfg.flen ≤ toy.regs.rnglen.toNat ∧
    (3 : BitVec 9).toNat + toy.cfg.flen > toy.regs.rnglen.toNat ∧
    ({ toy with ctrl := { toy.ctrl with testrng := false } } : State).testrng = false := by decide +kernel

/-! The engine, with the free hash. -/

/-- Draw number `j` of the test source. -/
def testDraw (s : State) (j : Nat) : Nat :=
  os2ip ((List.range s.cfg.flen).map fun i => s.mem.read (0xD00 + s.regs.rngpos.toNat + j * s.cfg.flen + i))

/-- While RNGBUF has bytes for `m` draws, the test source's draws are its bytes. -/
theorem testDraws (P : Ports) (s : State) (m : Nat) (ht : s.testrng = true)
    (hm : s.regs.rngpos.toNat + m * s.cfg.flen ≤ s.regs.rnglen.toNat) : Spec.DrawsAre P s m (testDraw s) := fun j hj =>
  ⟨fun _ => ⟨le_trans (Nat.add_le_add_left (Nat.mul_le_mul_right _ hj) _) hm, rfl⟩,
    fun hf => absurd (ht.symm.trans hf) (by decide)⟩

/-- V9 row 9: RNGBUF = 81 07, a one-byte message, MAXATT = 2. -/
def toyRow9 : State :=
  { toy with
    regs := { toy.regs with msglen := 1, outcap := 19, maxatt := 2, rnglen := 2 }
    mem := (toyMem.clear 0x3000000 4178).writeBytes 0xD00 [0x81, 0x07] }
/-- V9, TOY8C: Q of order 3, RNGBUF = 03 06 05. -/
def toyOrder3 : State :=
  { toy with
    params := { p := 251, a := 1, b := 2, gx := 13, gy := 63, n := 228, cof := 1 }
    keys := { qx := 173, qy := 55, d := 76 }
    regs := { toy.regs with msglen := 2, outcap := 20 }
    mem := (toyMem.clear 0x3000000 4178).writeBytes 0xD00 [0x03, 0x06, 0x05] }
/-- The production source, which answers AB; MAXATT = 1 and OUTCAP = WCS. -/
def toyLive : State :=
  { toy with ctrl := { toy.ctrl with testrng := false }, regs := { toy.regs with maxatt := 1 } }

theorem toyLive_draw : 0xAB = os2ip (List.replicate toyLive.cfg.flen 0xAB) := by decide +kernel

theorem memory_of_checks (s : State) (h : s.cfg = toyCfg)
    (hm : (s.mem.wf && s.mem.all fun c => inBuffer toyCfg c.1) = true) : MemoryInv s := by
  rw [Bool.and_eq_true, List.all_eq_true] at hm
  exact ⟨h ▸ toyCfg_legal, hm.1, h ▸ hm.2⟩

/-- The checks of ENCRYPT pass, and the retry loop passes over the first `n` draws of the test source. -/
def PassesOver (P : Ports) (s : State) (n : Nat) : Prop :=
  Spec.EncryptReady s ∧ ∀ j, j < n → Spec.Rejected P s (testDraw s j)

/-- Two draws out of range and the third usable; an all-zero keystream and then a usable draw, with no draw to spare; S at
infinity twice; the production source. -/
theorem witness_EncryptStoresTheRecord : toyPorts.Lawful ∧
    (MemoryInv toyRow1 ∧ MemoryInv toyRow9 ∧ MemoryInv toyOrder3 ∧ MemoryInv toyLive) ∧
    (Spec.DrawsAre toyPorts toyRow1 3 (testDraw toyRow1) ∧ Spec.DrawsAre toyPorts toyRow9 2 (testDraw toyRow9) ∧
      Spec.DrawsAre toyPorts toyOrder3 3 (testDraw toyOrder3) ∧ Spec.DrawsAre toyPorts toyLive 1 fun _ => 0xAB) ∧
    ((List.range 3).map (testDraw toyRow1) = [0, 240, 7] ∧ PassesOver toyPorts toyRow1 2 ∧
      Spec.Usable toyPorts toyRow1 7 ∧ 2 < toyRow1.regs.maxatt.toNat) ∧
    ((List.range 2).map (testDraw toyRow9) = [129, 7] ∧ PassesOver toyPorts toyRow9 1 ∧
      Spec.Usable toyPorts toyRow9 7 ∧ 1 < toyRow9.regs.maxatt.toNat) ∧
    ((List.range 3).map (testDraw toyOrder3) = [3, 6, 5] ∧ PassesOver toyPorts toyOrder3 2 ∧
      Spec.Usable toyPorts toyOrder3 5 ∧ 2 < toyOrder3.regs.maxatt.toNat) ∧
    (toyLive.testrng = false ∧ PassesOver toyPorts toyLive 0 ∧ Spec.Usable toyPorts toyLive 0xAB ∧
      0 < toyLive.regs.maxatt.toNat) := by
  refine ⟨toyPorts_lawful, ⟨memory_of_checks toyRow1 rfl ?_, memory_of_checks toyRow9 rfl ?_,
    memory_of_checks toyOrder3 rfl ?_, memory_of_checks toyLive rfl ?_⟩,
    ⟨testDraws _ _ _ ?_ ?_, testDraws _ _ _ ?_ ?_, testDraws _ _ _ ?_ ?_,
      fun _ _ => ⟨fun h => absurd h (by decide), fun _ => ⟨_, rfl, toyLive_draw⟩⟩⟩, ?_⟩
  all_goals try unfold PassesOver Spec.EncryptReady Spec.Rejected Spec.Usable
  all_goals and_intros
  all_goals decide +kernel

/-- V9 rows 2 and 4: row 1 with MAXATT = m. Row 3: RNGLEN = 2. Row 11: N = 240, RNGBUF = E9. -/
def toyMaxatt (m : BitVec 8) : State := { toyRow1 with regs := { toy.regs with maxatt := m } }
def toyRow3 : State := { toyRow1 with regs := { toy.regs with rnglen := 2 } }
def toyRow11 : State :=
  { toy with
    params := { toy.params with n := 240 }
    regs := { toy.regs with rnglen := 1 }
    mem := (toyMem.clear 0x3000000 4178).writeBytes 0xD00 [0xE9] }
/-- A production source that refuses every request. -/
def refusingPorts : Ports := { toyPorts with rng := fun _ _ => none }

theorem test_encrypt_faults_in_the_loop : (encryptWith toyPorts (toyMaxatt 2)).regs =
      { toy.regs with errcode := 7, maxatt := 2, reclen := 0, att := 2, rngpos := 2 } ∧
    (encryptWith toyPorts toyRow3).regs =
      { toyRow3.regs with errcode := 7, reclen := 0, att := 3, rngpos := 2 } ∧
    (encryptWith toyPorts toyRow11).regs =
      { toyRow11.regs with errcode := 8, reclen := 0, att := 1, rngpos := 1 } := by decide +kernel

/-- The checks; then the loop: two draws rejected with MAXATT = 2, none made with MAXATT = 0, the request after two rejected
draws refused, the first request to the production source refused, and [233]G at infinity. -/
theorem witness_EncryptFaultsClearTheRecord :
    (toyRaw.status.pvalid = false ∧
      toyNoHash.hsel ≥ toyNoHash.cfg.nhash ∧ toy.hsel < toy.cfg.nhash ∧ (4097 : Word).toNat > toy.cfg.msgCap ∧
      toy.regs.msglen.toNat ≤ toy.cfg.msgCap ∧ (toy.ctrl.noempty = true → toy.regs.msglen.toNat ≠ 0) ∧
      (20 : Word).toNat < wcs toy.cfg.flen (toy.cfg.digestLen toy.hsel) toy.regs.msglen.toNat ∧
      wcs toy.cfg.flen (toy.cfg.digestLen toy.hsel) toy.regs.msglen.toNat ≤ toy.regs.outcap.toNat ∧
      toy.isOnCurve 15 211 = false ∧ toy.isOnCurve toy.keys.qx toy.keys.qy = true ∧
      faults .encrypt toyRaw .paramsNotReady = true ∧
      faults .encrypt { toy with regs := { toy.regs with maxatt := 0 } } .randomnessExhausted = true) ∧
    (toyPorts.Lawful ∧ refusingPorts.Lawful ∧ toyCfg.Legal) ∧
    (Spec.DrawsAre toyPorts (toyMaxatt 2) 2 (testDraw (toyMaxatt 2)) ∧
      Spec.DrawsAre toyPorts (toyMaxatt 0) 0 (testDraw toy) ∧ Spec.DrawsAre toyPorts toyRow3 2 (testDraw toyRow3) ∧
      Spec.DrawsAre refusingPorts toyLive 0 (testDraw toy) ∧ Spec.DrawsAre toyPorts toyRow11 1 (testDraw toyRow11)) ∧
    (PassesOver toyPorts (toyMaxatt 2) 2 ∧ 2 = (toyMaxatt 2).regs.maxatt.toNat) ∧
    (PassesOver toyPorts (toyMaxatt 0) 0 ∧ 0 = (toyMaxatt 0).regs.maxatt.toNat) ∧
    (PassesOver toyPorts toyRow3 2 ∧ 2 < toyRow3.regs.maxatt.toNat ∧ Spec.RefusesAfter toyPorts toyRow3 2) ∧
    (PassesOver refusingPorts toyLive 0 ∧ 0 < toyLive.regs.maxatt.toNat ∧ Spec.RefusesAfter refusingPorts toyLive 0) ∧
    (PassesOver toyPorts toyRow11 0 ∧ 0 < toyRow11.regs.maxatt.toNat ∧ testDraw toyRow11 0 = 233 ∧
      233 < toyRow11.params.n ∧ (Spec.ephemeral toyRow11 233).z = 0) := by
  refine ⟨?_, ⟨toyPorts_lawful, ⟨toyPorts_lawful.1, fun _ _ _ h => nomatch h⟩, toyCfg_legal⟩,
    ⟨testDraws _ _ _ ?_ ?_, fun _ h => absurd h (Nat.not_lt_zero _), testDraws _ _ _ ?_ ?_,
      fun _ h => absurd h (Nat.not_lt_zero _), testDraws _ _ _ ?_ ?_⟩, ?_⟩
  all_goals try unfold PassesOver Spec.EncryptReady Spec.Rejected Spec.RefusesAfter
  all_goals and_intros
  all_goals decide +kernel

/-- The record RENC-style: x1, y1 with the tag `tag` and the one-byte body 57. -/
def tagged (x1 : Nat) (tag : List Byte) : List Byte := encodeRecord 1 x1 0x68 tag [0x57]

/-- TOY8 with N = 240, the scalar `d`, and the record `rec` of 17 bytes in REC. -/
def toyDecrypt (d : Nat) (rec : List Byte) : State :=
  { toy with
    params := { toy.params with n := 240 }
    keys := { toy.keys with d := d }
    regs := { toy.regs with reclen := 17, outcap := 1 }
    mem := Memory.writeBytes [] 0x3000000 rec }

/-- S, x2, y2, the message and the digest DECRYPT computes from (44, 104) and the body 57 with D = 90, for the free hash
of digest length 4. -/
def freeMessage : List Byte := xorBytes [0x57] (Spec.keystream (Ports.free.hash 0 4) 4 [212, 39] 1)
def freeDigest : List Byte := Ports.free.hash 0 4 ([212] ++ freeMessage ++ [39])

theorem tagged_decodes (tag : List Byte) (h : tag.length = 4) :
    decodeRecord 1 (tagged 0x2C tag) 4 false = some ⟨0x2C, 0x68, tag, [0x57]⟩ ∧ (tagged 0x2C tag).length = 17 := by
  match tag, h with
  | [_, _, _, _], _ => exact ⟨rfl, rfl⟩

theorem freeDigest_length : freeDigest.length = 4 := Ports.free_lawful.1 _ _ _

theorem toyDecrypt_record (d : Nat) (rec : List Byte) (h : rec.length = 17) :
    ((List.range (toyDecrypt d rec).regs.reclen.toNat).map fun i => (toyDecrypt d rec).mem.read (0x3000000 + i)) =
      rec := by
  apply List.ext_getElem
  · simp [toyDecrypt, h]
  · intro i h1 h2
    have hi : i < rec.length := h2
    simp only [List.getElem_map, List.getElem_range, toyDecrypt]
    rw [Memory.read_writeBytes _ _ _ _ rfl, if_pos ⟨Nat.le_add_right _ _, by omega⟩]
    simp [hi]

theorem toyCfg_flen : toyCfg.flen = 1 := by decide +kernel
theorem toyDlen : toyCfg.digestLen toy.hsel = 4 := by decide +kernel

theorem toyDecrypt_memory (d : Nat) (rec : List Byte) (h : rec.length = 17) : MemoryInv (toyDecrypt d rec) := by
  refine ⟨toyCfg_legal, Memory.wf_writeBytes [] _ _ rfl, ?_⟩
  have key : ∀ (bs : List Byte) (a : Nat) (m : Memory), 0x3000000 ≤ a → a + bs.length ≤ 0x3000000 + 4178 →
      (∀ c ∈ m, inBuffer toyCfg c.1 = true) → ∀ c ∈ m.writeBytes a bs, inBuffer toyCfg c.1 = true := by
    intro bs
    induction bs with
    | nil => intro a m _ _ hm; exact hm
    | cons b bs ih =>
      intro a m h1 h2 hm
      rw [List.length_cons] at h2
      refine ih (a + 1) (m.write a b) (by omega) (by omega) ?_
      have hin : inBuffer toyCfg a = true := by
        simp only [inBuffer, List.any_cons, List.any_nil, Buffer.base, Buffer.cap, toyCfg, Bool.or_eq_true,
          Bool.and_eq_true]
        exact .inl (.inr (.inr (.inl ⟨decide_eq_true h1, decide_eq_true (by omega)⟩)))
      clear ih h2
      induction m with
      | nil => simp only [Memory.write]; split <;> simp [hin]
      | cons c t iht =>
        obtain ⟨k, v⟩ := c
        have hk := hm (k, v) (by simp)
        have ht := fun c hc => hm c (List.mem_cons_of_mem _ hc)
        simp only [Memory.write]
        split
        · split <;> simpa [hin, hk] using ht
        · split
          · split <;> simpa [hin] using ht
          · simpa [hk] using iht ht
  exact key rec _ [] (le_refl _) (by omega) (by simp)

theorem toyDecrypt_shared (rec : List Byte) : (toyDecrypt 90 rec).affine ((toyDecrypt 90 rec).scalarMul 90 ⟨44, 104, 1⟩) =
    (212, 39) ∧ ((toyDecrypt 90 rec).scalarMul 90 ⟨44, 104, 1⟩).z ≠ 0 ∧
    ((toyDecrypt 233 rec).scalarMul 233 ⟨44, 104, 1⟩).z = 0 ∧
    (toyDecrypt 90 rec).isOnCurve 44 104 = true ∧ (toyDecrypt 90 rec).isOnCurve 45 104 = false := by
  have h : ∀ d, (toyDecrypt d rec).scalarMul = (toyDecrypt d []).scalarMul ∧
    (toyDecrypt d rec).affine = (toyDecrypt d []).affine ∧
    (toyDecrypt d rec).isOnCurve = (toyDecrypt d []).isOnCurve := fun _ => ⟨rfl, rfl, rfl⟩
  rw [(h 90).1, (h 90).2.1, (h 90).2.2, (h 233).1]
  decide +kernel

/-- The record whose tag is the digest, with OUTCAP = the body's length. -/
theorem witness_DecryptStoresTheMessage :
    let s := toyDecrypt 90 (tagged 0x2C freeDigest)
    let r : Record := ⟨0x2C, 0x68, freeDigest, [0x57]⟩
    let S := s.scalarMul s.keys.d ⟨r.x1, r.y1, 1⟩
    let x2 := i2osp (s.affine S).1 s.cfg.flen
    let y2 := i2osp (s.affine S).2 s.cfg.flen
    let H := Ports.free.hash s.hsel (s.cfg.digestLen s.hsel)
    MemoryInv s ∧ s.status.pvalid = true ∧ s.hsel < s.cfg.nhash ∧ 1 ≤ s.keys.d ∧ s.keys.d < s.params.n ∧
    s.regs.reclen.toNat ≤ s.cfg.recCap ∧
    decodeRecord s.cfg.flen ((List.range s.regs.reclen.toNat).map fun i => s.mem.read (0x3000000 + i))
      (s.cfg.digestLen s.hsel) s.ctrl.noempty = some r ∧
    r.body.length ≤ s.regs.outcap.toNat ∧ r.body.length ≤ s.cfg.msgCap ∧ s.isOnCurve r.x1 r.y1 = true ∧ S.z ≠ 0 ∧
    H (x2 ++ xorBytes r.body (Spec.keystream H (s.cfg.digestLen s.hsel) (x2 ++ y2) r.body.length) ++ y2) = r.tag := by
  intro s r S x2 y2 H
  have hd := tagged_decodes freeDigest freeDigest_length
  have hS := toyDecrypt_shared (tagged 0x2C freeDigest)
  have h1 : s.affine S = (212, 39) := hS.1
  refine ⟨toyDecrypt_memory _ _ hd.2, rfl, by decide, by decide, by decide, by decide, ?_, by decide, by decide,
    hS.2.2.2.1, hS.2.1, ?_⟩
  · rw [toyDecrypt_record _ _ hd.2, show s.cfg.flen = 1 from toyCfg_flen, show s.cfg.digestLen s.hsel = 4 from toyDlen]
    exact hd.1
  · have hx : x2 = [212] := by
      show i2osp (s.affine S).1 s.cfg.flen = _
      rw [h1, show s.cfg.flen = 1 from toyCfg_flen]
      decide
    have hy : y2 = [39] := by
      show i2osp (s.affine S).2 s.cfg.flen = _
      rw [h1, show s.cfg.flen = 1 from toyCfg_flen]
      decide
    rw [hx, hy]
    show Ports.free.hash 0 (toyCfg.digestLen toy.hsel) ([212] ++ xorBytes [0x57]
      (Spec.keystream (Ports.free.hash 0 (toyCfg.digestLen toy.hsel)) (toyCfg.digestLen toy.hsel) [212, 39] 1) ++ [39]) = _
    rw [toyDlen]
    rfl

/-- V10's order of checks: TOY8 with OUTCAP = cap, RECLEN = len and the content byte x of x1. -/
def toyCheck (cap len : Word) (x : Byte) : State :=
  { toy with regs := { toy.regs with outcap := cap, reclen := len }, mem := toyMem.write 0x3000004 x }
/-- The same with D = d. -/
def toyKey (d : Nat) : State := { toyCheck 0 18 0x2C with keys := { toy.keys with d := d } }
/-- The same with MSG_CAP = 2. -/
def toySmall : State := { toyCheck 3 19 0xAC with cfg := { toyCfg with msgCap := 2 } }

theorem test_decrypt_check_order :
    (faults .decrypt { toyRaw with ctrl := toyNoHash.ctrl } .paramsNotReady = true ∧
      faults .decrypt toyNoHash .badParam = true) ∧
    (faults .decrypt (toyKey 0) .invalidScalar = true ∧ faults .decrypt (toyKey 233) .invalidScalar = true) ∧
    (faults .decrypt (toyCheck 0 4179 0x2C) .invalidLength = true ∧
      faults .decrypt (toyCheck 0 18 0x2C) .invalidEncoding = true) ∧
    (faults .decrypt (toyCheck 2 19 0xAC) .bufferTooSmall = true ∧ faults .decrypt toySmall .invalidLength = true ∧
      faults .decrypt (toyCheck 3 19 0xAC) .invalidEncoding = true) := by decide +kernel

/-- The checks, one state each and where two meet the earlier one's state; then the three causes: x1 off the curve; S at
infinity (D = 233 with N = 240); a tag other than the digest. -/
theorem witness_DecryptFaultsAlikeAndClearsTheMessage :
    (toyRaw.status.pvalid = false ∧ toyNoHash.status.pvalid = true ∧ toyNoHash.hsel ≥ toyNoHash.cfg.nhash) ∧
    (¬(1 ≤ (toyKey 0).keys.d ∧ (toyKey 0).keys.d ≤ (toyKey 0).params.n - 1) ∧
      ¬(1 ≤ (toyKey 233).keys.d ∧ (toyKey 233).keys.d ≤ (toyKey 233).params.n - 1)) ∧
    (toy.status.pvalid = true ∧ toy.hsel < toy.cfg.nhash ∧ 1 ≤ toy.keys.d ∧ toy.keys.d < toy.params.n ∧
      (4179 : Word).toNat > toy.cfg.recCap ∧ (18 : Word).toNat ≤ toy.cfg.recCap) ∧
    (plainLen (toyCheck 0 18 0x2C).recordBytes 4 false = none ∧ plainLen toySmall.recordBytes 4 false = some 3 ∧
      toySmall.cfg.msgCap < 3 ∧ decodeRecord 1 (toyCheck 3 19 0xAC).recordBytes 4 false = none) ∧
    (decodeRecord 1 (tagged 0x2D [1, 2, 3, 4]) 4 false = some ⟨0x2D, 0x68, [1, 2, 3, 4], [0x57]⟩ ∧
      (toyDecrypt 90 (tagged 0x2D [1, 2, 3, 4])).isOnCurve 0x2D 0x68 = false) ∧
    (decodeRecord 1 (tagged 0x2C [1, 2, 3, 4]) 4 false = some ⟨0x2C, 0x68, [1, 2, 3, 4], [0x57]⟩ ∧
      ((toyDecrypt 233 (tagged 0x2C [1, 2, 3, 4])).scalarMul 233 ⟨0x2C, 0x68, 1⟩).z = 0 ∧ 233 < 240) ∧
    (freeDigest ≠ freeDigest.map (· + 1) ∧ (freeDigest.map (· + 1)).length = 4) ∧
    MemoryInv (toyDecrypt 90 (tagged 0x2D [1, 2, 3, 4])) ∧ faults .decrypt toyRaw .paramsNotReady = true := by
  have hS := toyDecrypt_shared
  refine ⟨by decide, by decide, by decide +kernel, by decide +kernel, ⟨by decide +kernel, (hS _).2.2.2.2⟩,
    ⟨by decide +kernel, (hS _).2.2.1, by decide⟩, ⟨?_, ?_⟩,
    toyDecrypt_memory _ _ (by decide +kernel), by decide +kernel⟩
  · have hb : ∀ b : Byte, b ≠ b + 1 := by decide +kernel
    match freeDigest, freeDigest_length with
    | b :: _, _ => exact fun h => hb b (List.cons.inj h).1
  · rw [List.length_map, freeDigest_length]

/-! Encoding, steps, invariants. -/

theorem witness_DecodeOfEncodeIsTheCommand : (Instr.rdec 15 0).wellFormed = true ∧
    (Instr.pget 15 3 .z).wellFormed = true := by decide
theorem witness_OnlyTheCommandsWordDecodes : decode 0x2AF32000 = .ok (.pget 15 3 .z) := by decide
theorem witness_IllegalWordsOnlyFault : (toy.acceptWord 0x2A003000).status.busy = true ∧
    (toy.acceptWord 0x2A003000).turns = [] ∧ (toy.withFetchWord 32 0x2A003000).turns = [.core] ∧
    (toy.withFetchWord 32 0x2A003000).status.busy = true ∧
    decode (toy.withFetchWord 32 0x2A003000).scratch.cmd = .error .selector ∧
    decode (toy.acceptWord 0x2A003000).scratch.cmd = .error .selector := by decide +kernel
theorem witness_StepRunsTheAcceptedCommand : (toy.acceptWord 0x21210000).status.busy = true ∧
    decode (toy.acceptWord 0x21210000).scratch.cmd = .ok (.padd 2 1 0) ∧ (toy.acceptWord 0x21210000).turns = [] ∧
    (Instr.padd 2 1 0).wellFormed = true := by decide +kernel

/-- One state that meets every invariant, and a step from it. -/
theorem witness_InvariantsAreKept : NumbersInv toy ∧ MemoryInv toy ∧ IdleInv toy ∧ FaultInv toy ∧ TestSourceInv toy ∧
    step toy = .next toy := ⟨toy_numbers, toy_memory, toy_idle, toy_fault, toy_testSource, rfl⟩
/-- A reset in an ENCRYPT of the production source that has walked E_CHECK and two E_DRAW phases (TOY8 with N = 2, so that
the answer AB is rejected): the next request is number 2. -/
theorem witness_InvariantsHoldAfterReset :
    let s := seqRun toyPorts 3 (({ toyLive with params := { toy.params with n := 2 }, regs := toy.regs } : State).acceptWord 0x60000000)
    ({ s with turns := [.host .reset] } : State).turns = [.host .reset] ∧ s.cfg.Legal ∧ s.phase = .eDraw ∧
      s.freeCtr = 0 ∧ s.scratch.freeCtr = 2 ∧ s.hostReset.freeCtr = 2 :=
  ⟨rfl, toyCfg_legal, by decide +kernel⟩

/-! Datapaths, codec, KDF. -/

theorem witness_MontgomeryLoopReduces : 1 ≤ 4 ∧ 0 < 251 ∧ (251 * 13 + 1) % 2 ^ 4 = 0 ∧ 250 < 251 ∧ 0 < 251 ∧
    251 < 2 ^ (4 * 2) := by decide
/-- P = 223 and x = 58492 of V3, and the largest x. -/
theorem witness_BarrettReduceIsExact : 1 ≤ 8 ∧ 2 ^ (8 - 1) < 223 ∧ 223 < 2 ^ 8 ∧ 2 ^ 8 + 37 = 2 ^ (2 * 8) / 223 ∧
    58492 < 2 ^ (2 * 8) ∧ 65535 < 2 ^ (2 * 8) := by decide
theorem witness_FermatInvIsThePower : 2 ≤ 251 ∧ 251 < 2 ^ 8 ∧ 1 ≤ 250 ∧ 250 < 251 ∧ Nat.Prime 251 := by norm_num
/-- T = G and U = [3]G of V5. -/
theorem witness_JacobianFormulasAreTangentAndChord : Nat.Prime 251 ∧
    ((4 : ℕ) : ZMod 251) * (((1 : ℕ) : ZMod 251) ^ 2)⁻¹ ≠ ((29 : ℕ) : ZMod 251) * (((1 : ℕ) : ZMod 251) ^ 2)⁻¹ ∧
    3 < 251 ∧ 4 < 251 ∧ 121 < 251 ∧ 1 ≠ 0 ∧ 121 ≠ 0 ∧ 29 < 251 ∧ 101 < 251 := by
  have prime : Nat.Prime 251 := by norm_num
  have : Fact (Nat.Prime 251) := ⟨prime⟩
  refine ⟨prime, ?_, by decide⟩
  simp only [Nat.cast_one, one_pow, inv_one, mul_one]
  decide
theorem witness_EncodedRecordHasItsLayoutAndDecodes : 1 ≤ 1 ∧ 1 ≤ 64 ∧ 0 < 256 ^ 1 ∧ 255 < 256 ^ 1 ∧
    ([0xAA, 0xBB, 0xCC, 0xDD] : List Byte).length ≤ 64 ∧ ([] : List Byte).length < 2 ^ 24 := by decide +kernel
theorem witness_AcceptedRecordsAreCanonical : decodeRecord 1 toyRecord 4 true =
    some ⟨0x2C, 0x68, [0x7C, 0xC3, 0xBD, 0x44], [0x47, 0xFC, 0x4F]⟩ ∧
    plainLen (toyCheck 3 19 0xAC).recordBytes 4 true = some 3 := by decide +kernel
theorem witness_RecordSizeIsBoundedByWcs : 1 ≤ 1 ∧ 128 < 256 ^ 1 ∧ 127 < 256 ^ 1 := by decide
theorem witness_KdfIsThePrefixOfItsRequests : 1 ≤ 4 ∧ (∀ m, (toyPorts.hash 0 4 m).length = 4) ∧ 5 ≤ 10 :=
  ⟨by decide, toyPorts_lawful.1 0 4, by decide⟩
theorem witness_PhasesReachTheMeanings : toyPorts.Lawful ∧ Ports.free.Lawful ∧ toy.cfg.Legal ∧
    decode 0x60000000 = .ok .encrypt ∧ decode 0x61000000 = .ok .decrypt ∧ decode 0x40000000 = .ok .kdf :=
  ⟨toyPorts_lawful, Ports.free_lawful, toyCfg_legal, by decide⟩

/-! Round trip: TOY8 with N = 8, D = 5, Q = [5]G = (53, 91); the draw is 7; the decrypting state is the one ENCRYPT left. -/

def tripStart : State :=
  { toy with params := { toy.params with n := 8 }, keys := { qx := 53, qy := 91, d := 5 } }
def tripEnd : State := encryptWith toyPorts tripStart

theorem trip_shared : Spec.SharedPointAgrees tripStart 5 := by
  have key : ∀ k : Fin 8, 1 ≤ k.val →
      tripStart.isOnCurve (tripStart.affine (tripStart.scalarMul k.val tripStart.basePoint)).1
        (tripStart.affine (tripStart.scalarMul k.val tripStart.basePoint)).2 = true ∧
      (tripStart.scalarMul 5 ⟨(tripStart.affine (tripStart.scalarMul k.val tripStart.basePoint)).1,
        (tripStart.affine (tripStart.scalarMul k.val tripStart.basePoint)).2, 1⟩).z ≠ 0 ∧
      tripStart.affine (tripStart.scalarMul 5
        ⟨(tripStart.affine (tripStart.scalarMul k.val tripStart.basePoint)).1,
         (tripStart.affine (tripStart.scalarMul k.val tripStart.basePoint)).2, 1⟩) =
        tripStart.affine (tripStart.scalarMul k.val tripStart.publicPoint) := by decide +kernel
  intro k h1 h2 _ _
  exact key ⟨k, h2⟩ h1

theorem trip_width : WidthInv tripStart := by
  refine ⟨fun r => ?_, by decide +kernel⟩
  cases r with
  | f r => revert r; decide +kernel
  | ptX j => revert j; decide +kernel
  | ptY j => revert j; decide +kernel
  | ptZ j => revert j; decide +kernel
  | _ => decide +kernel

theorem witness_DecryptInvertsEncrypt : toyPorts.Lawful ∧ NumbersInv tripStart ∧ MemoryInv tripStart ∧
    MemoryInv tripEnd ∧ Spec.SharedPointAgrees tripStart tripEnd.keys.d ∧
    tripStart.status.err = false ∧ tripEnd.status.err = false ∧ tripEnd.cfg = tripStart.cfg ∧
    tripEnd.params = tripStart.params ∧ tripEnd.ctrl = tripStart.ctrl ∧ tripEnd.status.pvalid = true ∧
    1 ≤ tripEnd.keys.d ∧ tripEnd.keys.d < tripEnd.params.n ∧
    tripStart.regs.msglen.toNat ≤ tripEnd.regs.outcap.toNat := by
  have hd : tripEnd.keys.d = 5 := by decide +kernel
  refine ⟨toyPorts_lawful, ⟨toyCfg_legal, trip_width, fun _ => ?_⟩, ⟨toyCfg_legal, ?_⟩, ⟨?_, ?_⟩, hd ▸ trip_shared, ?_⟩
  all_goals decide +kernel

theorem witness_PrivateScalarLeaksOnlyThroughDecrypt :
    let s := toy.acceptWord 0x60000000
    SameButD s { s with keys := { s.keys with d := 1 } } ∧ s.status.busy = true ∧
      decode s.scratch.cmd ≠ .ok .decrypt ∧ ∃ t, step s = .next t :=
  ⟨⟨1, rfl⟩, rfl, by decide, ⟨_, rfl⟩⟩

/-! The bus. -/

/-- `toy` with one access of the host to come. -/
def before (a : Access) (s : State) : State := { s with turns := [.host a] }

theorem witness_CmdWritesAreAcceptedOrDropped :
    (before (.write 0x008 4 0x60000000) toy).status.busy = false ∧
    (before (.write 0x008 4 0x60000000) toy).status.err = false ∧
    (before (.write 0x008 4 0) (toy.acceptWord 0)).status.busy = true ∧
    (before (.write 0x008 4 0) (toy.raise .badParam)).status.err = true := by decide +kernel
theorem witness_StatusWriteAcknowledges : (before (.write 0x00C 4 6) (toy.raise .badParam)).turns =
    .host (.write 0x00C 4 6) :: [] := rfl
theorem witness_BusyAndMisalignedAccessesAreRefused : toy.cfg.Legal ∧
    (before (.read 0x040 4) (toy.acceptWord 0x60000000)).status.busy = true ∧ (0x040 : Word).toNat % 4 = 0 ∧
    (0x100 : Word) ≠ 0x00C ∧ (0x101 : Word).toNat % 4 ≠ 0 ∧ (2 : Nat) ≠ 4 := ⟨toyCfg_legal, by decide +kernel⟩

/-- The first and the last byte of each buffer. -/
def bufferEnds : List (Buffer × Nat) :=
  [(.msg, 0x1000000), (.msg, 0x1000FFF), (.ks, 0x2000000), (.ks, 0x2000FFF), (.record, 0x3000000), (.record, 0x3001051),
   (.tag, 0xC00), (.tag, 0xC3F), (.seed, 0xC80), (.seed, 0xCFF), (.rngbuf, 0xD00), (.rngbuf, 0xDFF)]

theorem bufferEnds_buffered : ∀ e ∈ bufferEnds, Spec.Buffered toyCfg e.2 := by
  have inside : ∀ e ∈ bufferEnds, e.1.base ≤ e.2 ∧ e.2 < e.1.base + e.1.cap toyCfg := by decide +kernel
  exact fun e he => ⟨e.1, fun _ => rfl, inside e he⟩

/-- The ends of the reserved ranges. -/
theorem ends_reserved : (∀ a ∈ [0x3C0, 0x3FF, 0x8C0, 0xBFF, 0x101, 0x13F, 0x801, 0xC40, 0xC7F, 0xE00, 0xFFFFFF,
      0x1001000, 0x1FFFFFF, 0x2001000, 0x2FFFFFF, 0x3001052, 0x3FFFFFF, 0x4000000], Spec.Reserved toyCfg a) ∧
    ∀ a ∈ [0xD00, 0xDFF], Spec.Reserved .cfg256 a := by
  constructor <;> (unfold Spec.Reserved; decide +kernel)

/-- D's first and last word; the ends of the reserved ranges and of the buffers; the first and the last byte of a
register's image. -/
theorem witness_ReadsHaveNoSideEffect : toy.cfg.Legal ∧ (∀ e ∈ bufferEnds, Spec.Buffered toyCfg e.2) ∧
    Spec.Reserved toyCfg 0x8C0 ∧ Spec.Reserved .cfg256 0xD00 ∧ toy.status.busy = false ∧
    (0x300 : Word).toNat % 4 = 0 ∧ (0x33C : Word).toNat < 0x340 ∧
    Spec.slotBase .mu = 0x380 ∧ Spec.slotBase (.f 15) = 0x7C0 ∧ Spec.slotBase (.ptZ 3) = 0xB80 ∧ 0 < toy.cfg.flen ∧
    31 < Config.cfg256.flen :=
  ⟨toyCfg_legal, bufferEnds_buffered, ends_reserved.1 _ (by decide), ends_reserved.2 _ (by decide), by decide +kernel⟩

/-- The last word of the point registers and of REC, whose capacity is no multiple of 4; the first and the last word of
f[15] in the reference configuration. -/
theorem witness_RegisterAndBufferWritesStoreTheirBytes : MemoryInv toy ∧ toy.status.busy = false ∧
    Spec.slotBase (.ptZ 3) = 0xB80 ∧ (0xB80 : Word).toNat % 4 = 0 ∧ toy.cfg.recCap % 4 = 2 ∧
    (0x3001050 : Word).toNat % 4 = 0 ∧ State.reset.cfg.Legal ∧ State.reset.cfg.fieldBits % 32 = 0 ∧
    32 * 0 + 32 ≤ State.reset.cfg.fieldBits ∧ 32 * 7 + 32 ≤ State.reset.cfg.fieldBits ∧
    State.reset.status.busy = false :=
  ⟨toy_memory, rfl, rfl, by decide, by decide +kernel, by decide, by show Config.cfg256.Legal; decide +kernel,
    by decide +kernel⟩

/-- CTRL; RNGLEN at 256 and above it; ERRCODE, which is read-only; P's only word in TOY8, a word beyond it in the same slot,
GY's, and N's. -/
theorem witness_ControlAndParameterWritesTakeEffect : toy.status.busy = false ∧
    ((0x014 : Word).toNat < 0x100 ∧ (0x014 : Word) ≠ 0x008 ∧ (0x014 : Word) ≠ 0x00C) ∧
    (toy.cfg.testEn = true ∧ Config.cfg256.testEn = false) ∧
    ((toy.hostAccess (.write 0x038 4 256)).regs.rnglen = 256 ∧ (toy.hostAccess (.write 0x038 4 0x201)).regs.rnglen = 256) ∧
    (toy.hostAccess (.write 0x010 4 7)).regs.errcode = 0 ∧
    (0x100 ≤ (0x100 : Word).toNat ∧ (0x100 : Word).toNat < 0x240 ∧ (0x100 : Word).toNat % 64 < toy.cfg.flen) ∧
    (0x100 ≤ (0x200 : Word).toNat ∧ (0x200 : Word).toNat < 0x240 ∧ (0x200 : Word).toNat % 64 < toy.cfg.flen) ∧
    ¬((0x104 : Word).toNat % 64 < toy.cfg.flen) ∧ ¬((0x240 : Word).toNat < 0x240) := by decide +kernel

/-! Rules about the whole machine. -/

theorem witness_CommandsWriteOnlyWhatTheRulesName : toy.cfg.Legal ∧ toy.status.err = false ∧
    (∃ t, exec .encrypt toy = .next t) ∧ writesFlags .encrypt = false ∧ writesBuffer .encrypt .msg = false :=
  ⟨toyCfg_legal, rfl, ⟨_, rfl⟩, rfl, rfl⟩
theorem witness_SharedPreconditionsComeFirst : Instr.encrypt.wellFormed = true ∧ toyRaw.status.err = false ∧
    needsPvalid .encrypt = true ∧ toyRaw.status.pvalid = false ∧ needsHash .encrypt = true ∧
    toyNoHash.status.pvalid = true ∧ toyNoHash.status.err = false ∧ toyNoHash.hsel ≥ toyNoHash.cfg.nhash ∧
    needsPvalid .kdf = false := by decide +kernel
theorem witness_EveryCommandEndsIdleWithAListedFault : (Instr.rdec 1 2).wellFormed = true ∧
    toy.status.err = false := by decide +kernel

end Sys2Proof.Tests
end

namespace Sys2Proof

/-! ## The row of a command, and decoding its word (30_encoding.md R103, R104) -/

/-- The row of R104 a command belongs to. -/
def Instr.opcode : Instr → Opcode
  | .nop => .nop
  | .setup => .setup
  | .zeroize => .zeroize
  | .modadd _ _ _ => .modadd
  | .modsub _ _ _ => .modsub
  | .modmul _ _ _ => .modmul
  | .modsqr _ _ => .modsqr
  | .montmul _ _ _ => .montmul
  | .tomont _ _ => .tomont
  | .frommont _ _ => .frommont
  | .modred _ _ _ => .modred
  | .modinv _ _ => .modinv
  | .cmp _ _ => .cmp
  | .mov _ _ => .mov
  | .ldi _ _ => .ldi
  | .pdbl _ _ => .pdbl
  | .padd _ _ _ => .padd
  | .paff _ _ => .paff
  | .peq _ _ => .peq
  | .pisinf _ => .pisinf
  | .psetinf _ => .psetinf
  | .pldg _ => .pldg
  | .pldq _ => .pldq
  | .pmov _ _ => .pmov
  | .pset _ _ _ => .pset
  | .pget _ _ _ => .pget
  | .onc _ _ => .onc
  | .pmul _ _ _ => .pmul
  | .schk _ => .schk
  | .kdf => .kdf
  | .renc _ _ => .renc
  | .rdec _ _ => .rdec
  | .ctsize => .ctsize
  | .ptsize => .ptsize
  | .encrypt => .encrypt
  | .decrypt => .decrypt
  | .draw _ => .draw

/-- The opcodes of R104 are pairwise different, and each is in the table. -/
@[simp] theorem Opcode.ofCode_code (o : Opcode) : Opcode.ofCode o.code = some o := by
  cases o <;> decide

@[simp] theorem fieldOp_encode (i : Instr) : fieldOp (encode i) = i.opcode.code := by
  cases i <;> simp [encode, Instr.opcode]

theorem zerosOk_encode (i : Instr) : i.opcode.format.zerosOk (encode i) = true := by
  cases i <;> simp [encode, Instr.opcode, Opcode.format, Format.zerosOk, Slot.zeroOk]

theorem pointsOk_encode (i : Instr) : i.opcode.format.pointsOk (encode i) = true := by
  cases i <;> simp [encode, Instr.opcode, Opcode.format, Format.pointsOk, Slot.pointOk]

theorem selectorOk_encode (i : Instr) : i.opcode.format.selectorOk (encode i) = true := by
  cases i <;> simp [encode, Instr.opcode, Opcode.format, Format.selectorOk, Slot.selOk]

@[simp] theorem build_encode (i : Instr) : i.opcode.build (encode i) = i := by
  cases i <;> simp [encode, Instr.opcode, Opcode.build]

/-- The word of a well-formed command passes the four checks of R103 and reads back as the command. -/
theorem decode_encode (i : Instr) (hwf : i.wellFormed = true) : decode (encode i) = .ok i := by
  simp [decode, zerosOk_encode, pointsOk_encode, selectorOk_encode, hwf]

end Sys2Proof

namespace Sys2Proof.Machine

/-! ## The step in which the core moves (00_scope.md R9, 10_state.md R27) -/

theorem step_of_no_turn {s : State} (h : s.turns = []) : step s = coreMove s := by
  simp [step, h]

theorem step_of_core_turn {s : State} {rest : List Turn} (h : s.turns = .core :: rest) :
    step s = coreMove { s with turns := rest } := by
  simp [step, h]

theorem coreMove_of_decode {s : State} {i : Instr} (hb : s.status.busy = true) (hd : decode s.fetch = .ok i) :
    coreMove s = exec i s := by
  simp [coreMove, runCommand, hb, hd]

/-- From the state the host builds, the core moves at the state in which the word has just been accepted: the turn put in
front is the one the step takes off. -/
theorem step_withFetchWord (s : State) (w : Word) : step (s.withFetchWord 32 w.toNat) = coreMove (s.acceptWord w) := by
  have hw : BitVec.ofNat 32 (w.toNat % 2 ^ 32) = w := by
    rw [Nat.mod_eq_of_lt w.isLt, BitVec.ofNat_toNat, BitVec.setWidth_eq]
  have ht : (s.withFetchWord 32 w.toNat).turns = .core :: s.turns := rfl
  rw [step_of_core_turn ht, State.withFetchWord, hw]
  rfl

/-- Settles O32: a core turn is taken off and the decoded command runs; `withFetchWord` puts such a turn in front of the
state that has accepted the word, and a well-formed command's word decodes to it. -/
theorem stepRunsTheAcceptedCommand : Obligations.StepRunsTheAcceptedCommand := by
  refine ⟨fun s i hb hd => ⟨fun ht => ?_, fun rest ht => ?_⟩, fun s i hwf => ⟨?_, ?_, ?_⟩⟩
  · rw [step_of_no_turn ht, coreMove_of_decode hb hd]
  · rw [step_of_core_turn ht]
    exact coreMove_of_decode (s := { s with turns := rest }) hb hd
  · rw [step_withFetchWord]
    exact coreMove_of_decode (State.acceptWord_busy s _) (decode_encode i hwf)
  · exact State.acceptWord_cmd s _
  · exact State.acceptWord_busy s _

end Sys2Proof.Machine

namespace Sys2Proof.Machine

/-! ## The range of every datapath (41_modarith.md R133 to R143, 42_point.md R161, R174, R175, R178) -/

theorem subP_lt {p : Nat} (hp : 0 < p) (a b : Nat) : subP p a b < p := Nat.mod_lt _ hp
theorem mulP_lt {p : Nat} (hp : 0 < p) (a b : Nat) : mulP p a b < p := Nat.mod_lt _ hp

theorem modAdd_lt {p a b : Nat} (ha : a < p) (hb : b < p) : modAdd p a b < p := by
  unfold modAdd; split <;> omega

theorem modSub_lt {p a b : Nat} (ha : a < p) (hb : b < p) : modSub p a b < p := by
  unfold modSub; split <;> omega

/-- The accumulator of R135 stays below p + b, whatever `pinv` is: each digit and each quotient digit is below 2^w. -/
theorem montAcc_lt {p b : Nat} (hp : 0 < p) (w pinv a n : Nat) : montAcc w p pinv a b n < p + b := by
  induction n with
  | zero => simp only [montAcc]; omega
  | succ n ih =>
    simp only [montAcc]
    have hpos : 0 < 2 ^ w := Nat.two_pow_pos w
    generalize montAcc w p pinv a b n = t at ih ⊢
    have hdigit : digit w a n * b ≤ (2 ^ w - 1) * b :=
      Nat.mul_le_mul_right b (Nat.le_sub_one_of_lt (Nat.mod_lt _ hpos))
    have hquot : (t + digit w a n * b) % 2 ^ w * pinv % 2 ^ w * p ≤ (2 ^ w - 1) * p :=
      Nat.mul_le_mul_right p (Nat.le_sub_one_of_lt (Nat.mod_lt _ hpos))
    rw [Nat.div_lt_iff_lt_mul hpos, Nat.mul_comm (p + b), Nat.mul_add]
    have hb : (2 ^ w - 1) * b + b = 2 ^ w * b := by rw [← Nat.succ_mul]; congr 1; omega
    have hp' : (2 ^ w - 1) * p + p = 2 ^ w * p := by rw [← Nat.succ_mul]; congr 1; omega
    omega

/-- R135's one conditional subtraction is enough. -/
theorem montMul_lt {p b : Nat} (hb : b < p) (w n pinv a : Nat) : montMul w n p pinv a b < p := by
  have h := montAcc_lt (p := p) (b := b) (by omega) w pinv a n
  simp only [montMul]
  split <;> omega

/-- R141's quotient estimate is at most the quotient and at most two below it. `H` is 2^(W−1). -/
theorem barrett_quotient_bounds {H p x : Nat} (hH : 0 < H) (hp : H ≤ p) (hx : x < 4 * H ^ 2) :
    (x / H * (4 * H ^ 2 / p) / (4 * H)) * p ≤ x ∧ x < (x / H * (4 * H ^ 2 / p) / (4 * H)) * p + 3 * p := by
  have hp0 : 0 < p := by omega
  set q1 := x / H with hq1
  set M := 4 * H ^ 2 / p with hM
  set q3 := q1 * M / (4 * H) with hq3
  have h1 : q1 * H ≤ x := Nat.div_mul_le_self x H
  have h1' : x < (q1 + 1) * H := Nat.lt_mul_of_div_lt (Nat.lt_succ_self _) hH
  have h2 : M * p ≤ 4 * H ^ 2 := Nat.div_mul_le_self _ p
  have h2' : 4 * H ^ 2 < (M + 1) * p := Nat.lt_mul_of_div_lt (Nat.lt_succ_self _) hp0
  have h3 : q3 * (4 * H) ≤ q1 * M := Nat.div_mul_le_self _ _
  have h3' : q1 * M < (q3 + 1) * (4 * H) := Nat.lt_mul_of_div_lt (Nat.lt_succ_self _) (by omega)
  have hq1lt : q1 < 4 * H := by
    rw [hq1, Nat.div_lt_iff_lt_mul hH]
    calc x < 4 * H ^ 2 := hx
      _ = 4 * H * H := by ring
  constructor
  · have : q3 * p * (4 * H) ≤ x * (4 * H) := by
      calc q3 * p * (4 * H) = q3 * (4 * H) * p := by ring
        _ ≤ q1 * M * p := Nat.mul_le_mul_right p h3
        _ = q1 * (M * p) := by ring
        _ ≤ q1 * (4 * H ^ 2) := Nat.mul_le_mul_left q1 h2
        _ = q1 * H * (4 * H) := by ring
        _ ≤ x * (4 * H) := Nat.mul_le_mul_right _ h1
    exact Nat.le_of_mul_le_mul_right this (by omega)
  · have hM' : q1 * (4 * H ^ 2) ≤ q1 * M * p + q1 * p := by
      calc q1 * (4 * H ^ 2) ≤ q1 * ((M + 1) * p) := Nat.mul_le_mul_left q1 h2'.le
        _ = q1 * M * p + q1 * p := by ring
    have hq1p : q1 * p ≤ 4 * H * p := Nat.mul_le_mul_right p hq1lt.le
    have hHp : 4 * H * H ≤ 4 * H * p := Nat.mul_le_mul_left _ hp
    have : x * (4 * H) < (q3 * p + 3 * p) * (4 * H) := by
      calc x * (4 * H) < (q1 + 1) * H * (4 * H) := Nat.mul_lt_mul_of_pos_right h1' (by omega)
        _ = q1 * (4 * H ^ 2) + 4 * H * H := by ring
        _ ≤ q1 * M * p + 4 * H * p + 4 * H * p := by omega
        _ ≤ (q3 + 1) * (4 * H) * p + 4 * H * p + 4 * H * p := by
          have := Nat.mul_le_mul_right p h3'.le
          omega
        _ = (q3 * p + 3 * p) * (4 * H) := by ring
    exact Nat.lt_of_mul_lt_mul_right this

/-- R141: two conditional subtractions are enough. -/
theorem barrettReduce_eq_mod {W p mu x : Nat} (hW : 1 ≤ W) (hlo : 2 ^ (W - 1) ≤ p) (hhi : p < 2 ^ W)
    (hmu : 2 ^ W + mu = 2 ^ (2 * W) / p) (hx : x < 2 ^ (2 * W)) : barrettReduce W p mu x = x % p := by
  obtain ⟨n, rfl⟩ : ∃ n, W = n + 1 := ⟨W - 1, by omega⟩
  rw [Nat.add_sub_cancel] at hlo
  have e1 : 2 ^ (n + 1) = 2 * 2 ^ n := by ring
  have e2 : 2 ^ (n + 1 + 1) = 4 * 2 ^ n := by ring
  have e3 : 2 ^ (n + 1 + 2) = 8 * 2 ^ n := by ring
  have e4 : 2 ^ (2 * (n + 1)) = 4 * (2 ^ n) ^ 2 := by ring
  have hq := barrett_quotient_bounds (Nat.two_pow_pos n) hlo (by omega : x < 4 * (2 ^ n) ^ 2)
  simp only [barrettReduce, Nat.add_sub_cancel, hmu, e2, e3]
  rw [e4]
  generalize x / 2 ^ n * (4 * (2 ^ n) ^ 2 / p) / (4 * 2 ^ n) = q at hq ⊢
  obtain ⟨hle, hlt⟩ := hq
  have hr : (((x : Int) - (q * p : Nat)) % (8 * 2 ^ n : Nat)).toNat = x - q * p := by
    rw [← Nat.cast_sub hle]
    have : x - q * p < 8 * 2 ^ n := by omega
    rw [← Int.natCast_emod, Nat.mod_eq_of_lt this, Int.toNat_natCast]
  rw [hr]
  have hmod : (x - q * p) % p = x % p := by
    conv_rhs => rw [← Nat.sub_add_cancel hle, Nat.add_mul_mod_self_right]
  rw [← hmod]
  have hr3 : x - q * p < p + p + p := by omega
  generalize x - q * p = r at hr3 ⊢
  rcases Nat.lt_or_ge r p with h1 | h1
  · rw [if_neg h1.not_ge, if_neg h1.not_ge, Nat.mod_eq_of_lt h1]
  · rw [if_pos h1, Nat.mod_eq_sub_mod h1]
    rcases Nat.lt_or_ge (r - p) p with h2 | h2
    · rw [if_neg h2.not_ge, Nat.mod_eq_of_lt h2]
    · rw [if_pos h2, Nat.mod_eq_sub_mod h2, Nat.mod_eq_of_lt (by omega)]

theorem fermatLoop_lt {p : Nat} (hp : 0 < p) (a e n : Nat) {r : Nat} (hr : r < p) : fermatLoop p a e n r < p := by
  induction n generalizing r with
  | zero => exact hr
  | succ n ih =>
    simp only [fermatLoop]
    split
    · exact ih (mulP_lt hp _ _)
    · exact ih (mulP_lt hp _ _)

theorem fermatInv_lt {p : Nat} (hp : 1 < p) (W a : Nat) : fermatInv W p a < p := fermatLoop_lt (by omega) a _ W hp

/-- A number that is 1 modulo 2^w and not modulo 2^(w+1) becomes 1 when 2^w is added. -/
theorem add_two_pow_mod {y w : Nat} (h : y % 2 ^ w = 1 % 2 ^ w) (h' : y % 2 ^ (w + 1) ≠ 1) :
    (y + 2 ^ w) % 2 ^ (w + 1) = 1 := by
  cases w with
  | zero => simp only [Nat.zero_add, Nat.pow_one, Nat.pow_zero] at h' ⊢; omega
  | succ w =>
    have hone : 1 % 2 ^ (w + 1) = 1 := Nat.mod_eq_of_lt (Nat.one_lt_two_pow (by omega))
    have hsplit : y % 2 ^ (w + 1 + 1) = y % 2 ^ (w + 1) + 2 ^ (w + 1) * (y / 2 ^ (w + 1) % 2) := by
      rw [Nat.pow_succ 2 (w + 1), Nat.mod_mul]
    have hbit : y / 2 ^ (w + 1) % 2 = 1 := by
      by_contra hne
      have : y / 2 ^ (w + 1) % 2 = 0 := by omega
      rw [this, h, hone] at hsplit
      exact h' hsplit
    rw [h, hone, hbit] at hsplit
    rw [Nat.add_mod, hsplit, Nat.mod_eq_of_lt (by omega : 2 ^ (w + 1) < 2 ^ (w + 1 + 1)),
      show 1 + 2 ^ (w + 1) * 1 + 2 ^ (w + 1) = 1 + 2 ^ (w + 1 + 1) by ring, Nat.add_mod_right,
      Nat.mod_eq_of_lt (Nat.one_lt_two_pow (by omega))]

/-- The inverse of an odd number modulo 2^w, lifted one bit at a time. -/
theorem mul_invPow2_mod {p : Nat} (hp : p % 2 = 1) (w : Nat) : p * invPow2 p w % 2 ^ w = 1 % 2 ^ w := by
  induction w with
  | zero => simp [Nat.mod_one]
  | succ w ih =>
    have hone : 1 % 2 ^ (w + 1) = 1 := Nat.mod_eq_of_lt (Nat.one_lt_two_pow (by omega))
    simp only [invPow2]
    split
    · next h => rw [h, hone]
    · next h =>
      have hodd : p * 2 ^ w = 2 ^ w + 2 ^ (w + 1) * (p / 2) := by
        conv_lhs => rw [← Nat.mod_add_div p 2, hp]
        ring
      rw [Nat.mul_add, hodd, ← Nat.add_assoc, Nat.add_mul_mod_self_left, hone]
      exact add_two_pow_mod ih h

/-- SETUP's PINV0 is the negated inverse of P modulo 2^w (R121), a w-bit number. -/
theorem setupPINV0_spec {p : Nat} (hp : p % 2 = 1) (w : Nat) :
    setupPINV0 w p < 2 ^ w ∧ (p * setupPINV0 w p + 1) % 2 ^ w = 0 := by
  have hpos := Nat.two_pow_pos w
  refine ⟨Nat.mod_lt _ hpos, ?_⟩
  have hx : invPow2 p w % 2 ^ w < 2 ^ w := Nat.mod_lt _ hpos
  have hinv : p * (invPow2 p w % 2 ^ w) % 2 ^ w = 1 % 2 ^ w := by rw [Nat.mul_mod_mod, mul_invPow2_mod hp]
  simp only [setupPINV0]
  generalize invPow2 p w % 2 ^ w = x at hx hinv ⊢
  have hsum : p * (2 ^ w - x) + p * x = 2 ^ w * p := by rw [← Nat.mul_add, Nat.sub_add_cancel hx.le, Nat.mul_comm]
  calc (p * ((2 ^ w - x) % 2 ^ w) + 1) % 2 ^ w = (p * (2 ^ w - x) + 1) % 2 ^ w := by
        rw [Nat.add_mod, Nat.mul_mod_mod, ← Nat.add_mod]
    _ = (p * (2 ^ w - x) + p * x) % 2 ^ w := by rw [Nat.add_mod, ← hinv, ← Nat.add_mod]
    _ = 0 := by rw [hsum, Nat.mul_mod_right]

/-- SETUP's MU is R121's constant without its bit W, a W-bit number, when P has full width. -/
theorem setupMU_spec {W p : Nat} (hW : 1 ≤ W) (hlo : 2 ^ (W - 1) < p) (hhi : p < 2 ^ W) :
    2 ^ W + setupMU W p = 2 ^ (2 * W) / p ∧ setupMU W p < 2 ^ W := by
  obtain ⟨n, rfl⟩ : ∃ n, W = n + 1 := ⟨W - 1, by omega⟩
  rw [Nat.add_sub_cancel] at hlo
  have e : 2 ^ (2 * (n + 1)) = 2 ^ (n + 1) * 2 ^ (n + 1) := by ring
  have hge : 2 ^ (n + 1) ≤ 2 ^ (2 * (n + 1)) / p := by
    rw [Nat.le_div_iff_mul_le (by omega), e]
    exact Nat.mul_le_mul_left _ hhi.le
  have hlt : 2 ^ (2 * (n + 1)) / p < 2 ^ (n + 1) + 2 ^ (n + 1) := by
    rw [Nat.div_lt_iff_lt_mul (by omega)]
    calc 2 ^ (2 * (n + 1)) = (2 ^ (n + 1) + 2 ^ (n + 1)) * 2 ^ n := by ring
      _ < (2 ^ (n + 1) + 2 ^ (n + 1)) * p := Nat.mul_lt_mul_of_pos_left hlo (by positivity)
  simp only [setupMU]
  omega

/-- All three coordinates are below `B`. -/
structure Triple.Below (T : Triple) (B : Nat) : Prop where
  x : T.x < B
  y : T.y < B
  z : T.z < B

theorem Triple.Below.mono {T : Triple} {B C : Nat} (h : T.Below B) (hBC : B ≤ C) : T.Below C :=
  ⟨h.x.trans_le hBC, h.y.trans_le hBC, h.z.trans_le hBC⟩

theorem Triple.inf_below {B : Nat} (hB : 0 < B) : Triple.inf.Below B := ⟨hB, hB, hB⟩

theorem jdbl_below {p : Nat} (hp : 0 < p) (a : Nat) (T : Triple) : (jdbl p a T).Below p := by
  simp only [jdbl]
  split
  · exact Triple.inf_below hp
  · exact ⟨subP_lt hp _ _, subP_lt hp _ _, mulP_lt hp _ _⟩

/-- An addition hands an operand through when the other one is at infinity, and reduces otherwise. -/
theorem jadd_below {p B : Nat} (hp : 0 < p) (hB : p ≤ B) (a : Nat) {T U : Triple} (hT : T.Below B) (hU : U.Below B) :
    (jadd p a T U).Below B := by
  simp only [jadd]
  split
  · exact Triple.inf_below (hp.trans_le hB)
  split
  · exact hU
  split
  · exact hT
  split
  · split
    · exact (jdbl_below hp a T).mono hB
    · exact Triple.inf_below (hp.trans_le hB)
  · exact Triple.Below.mono ⟨subP_lt hp _ _, subP_lt hp _ _, mulP_lt hp _ _⟩ hB

theorem jmulLoop_below {p B : Nat} (hp : 0 < p) (hB : p ≤ B) (a k n : Nat) {T acc : Triple} (hT : T.Below B)
    (hacc : acc.Below B) : (jmulLoop p a k T n acc).Below B := by
  induction n generalizing acc with
  | zero => exact hacc
  | succ n ih =>
    have hd : (jdbl p a acc).Below B := (jdbl_below hp a acc).mono hB
    simp only [jmulLoop]
    split
    · exact ih (jadd_below hp hB a hd hT)
    · exact ih hd

theorem jmul_below {p B : Nat} (hp : 0 < p) (hB : p ≤ B) (W a k : Nat) {T : Triple} (hT : T.Below B) :
    (jmul W p a k T).Below B := jmulLoop_below hp hB a k W hT (Triple.inf_below (hp.trans_le hB))

/-- An accepted INTEGER content stands for a field-sized number: one byte more than FLEN is only allowed for a leading
zero (R212). -/
theorem decodeInt_lt {F v : Nat} {s : List Byte} (h : decodeInt F s = some v) : v < 256 ^ F := by
  simp only [decodeInt, Option.ite_none_left_eq_some, Option.some.injEq] at h
  obtain ⟨-, -, -, hlen, htop, rfl⟩ := h
  rcases Nat.lt_or_ge F s.length with hF | hF
  · cases s with
    | nil => simp at hF
    | cons b s =>
      simp only [List.length_cons, List.headD_cons, not_and, not_not] at hlen hF htop
      have hs : s.length = F := by omega
      have hb : b = 0 := htop (by omega)
      have : os2ip (b :: s) = os2ip s := by simp [os2ip, hb]
      rw [this, ← hs]
      exact os2ip_lt s
  · exact (os2ip_lt s).trans_le (Nat.pow_le_pow_right (by norm_num) hF)

/-! ## The lengths of what the commands store (43_kdf.md R190, 44_codec.md R201 to R206, R213) -/

theorem length_kdfLoop_le (hash : List Byte → List Byte) (seed : List Byte) (L fuel ct : Nat) (out : List Byte) :
    (kdfLoop hash seed L fuel ct out).length ≤ L := by
  induction fuel generalizing ct out with
  | zero => exact List.length_take_le _ _
  | succ fuel ih =>
    simp only [kdfLoop]
    split
    · exact ih _ _
    · exact List.length_take_le _ _

theorem length_kdf_le (hash : List Byte → List Byte) (seed : List Byte) (L : Nat) : (kdf hash seed L).length ≤ L :=
  length_kdfLoop_le hash seed L L 1 []

theorem lenlen_mono {m n : Nat} (h : m ≤ n) : lenlen m ≤ lenlen n := by
  unfold lenlen; split_ifs <;> omega

@[simp] theorem length_lenEnc (n : Nat) : (lenEnc n).length = lenlen n := by
  unfold lenEnc lenlen; split_ifs <;> simp

@[simp] theorem length_tlv (tag : Byte) (c : List Byte) : (tlv tag c).length = 1 + lenlen c.length + c.length := by
  simp [tlv]; omega

theorem length_intContent_le (F v : Nat) : (intContent F v).length ≤ F + 1 := by
  have hdrop : ((i2osp v F).dropWhile (· == 0)).length ≤ F := by
    simpa using (List.dropWhile_sublist (l := i2osp v F) (· == 0)).length_le
  simp only [intContent]
  split_ifs
  · simp
  · simpa using hdrop
  · omega

/-- R206: a record is no longer than the worst case for its tag and body lengths. -/
theorem length_encodeRecord_le {F x y D L : Nat} {tag body : List Byte} (htag : tag.length ≤ D)
    (hbody : body.length ≤ L) : (encodeRecord F x y tag body).length ≤ wcs F D L := by
  have hx := length_intContent_le F x
  have hy := length_intContent_le F y
  have hx' := lenlen_mono hx
  have hy' := lenlen_mono hy
  have htag' := lenlen_mono htag
  have hbody' := lenlen_mono hbody
  simp only [encodeRecord, length_tlv, List.length_append, wcs]
  refine Nat.add_le_add (Nat.add_le_add_left (lenlen_mono ?_) 1) ?_ <;> omega

theorem tag_length_of_recordFits {D : Nat} {ne : Bool} {r : RawRecord} (h : recordFits D ne r = true) :
    r.tb.length = D := by
  simp only [recordFits, Bool.and_eq_true, beq_iff_eq] at h
  exact h.1

/-- What a decoded record is made of: field-sized integers, and a tag of D bytes (R213). -/
theorem decodeRecord_spec {F D : Nat} {buf : List Byte} {ne : Bool} {r : Record}
    (h : decodeRecord F buf D ne = some r) : r.x1 < 256 ^ F ∧ r.y1 < 256 ^ F ∧ r.tag.length = D := by
  simp only [decodeRecord] at h
  split at h
  · simp at h
  · next raw _ =>
    split at h
    · simp at h
    · next hfits =>
      split at h
      · next x1 y1 hx hy =>
        obtain rfl := Option.some.inj h
        exact ⟨decodeInt_lt hx, decodeInt_lt hy, tag_length_of_recordFits (by simpa using hfits)⟩
      · simp at h

end Sys2Proof.Machine

namespace Sys2Proof.Config

/-! ## What the legal values of R6 give -/

/-- W is a whole number of bytes. -/
theorem pow_flen {c : Config} (h : c.Legal) : 256 ^ c.flen = 2 ^ c.fieldBits := by
  obtain ⟨⟨-, -, h8⟩, -⟩ := h
  rw [show (256 : Nat) = 2 ^ 8 by norm_num, ← Nat.pow_mul, flen, Nat.mul_div_cancel' (Nat.dvd_of_mod_eq_zero h8)]

/-- A register fits in its 64-byte slot. -/
theorem flen_le {c : Config} (h : c.Legal) : c.flen ≤ 64 := by
  obtain ⟨⟨-, hW, -⟩, -⟩ := h
  rw [flen]
  omega

/-- A digest is at most 64 bytes long. -/
theorem digestLen_le {c : Config} (h : c.Legal) (n : Nat) : c.digestLen n ≤ 64 := by
  obtain ⟨-, -, ⟨-, -, hd⟩, -⟩ := h
  rw [digestLen, List.getD_eq_getElem?_getD]
  cases hn : c.dlen[n]? with
  | none => simp
  | some d => exact (hd d (List.mem_of_getElem? hn)).2

end Sys2Proof.Config

namespace Sys2Proof.Machine

/-- A record for a legal message fits in REC: that is what R6's bound on REC_CAP is for. -/
theorem length_encodeRecord_le_recCap {c : Config} (h : c.Legal) {x y : Nat} {tag body : List Byte}
    (htag : tag.length ≤ 64) (hbody : body.length ≤ c.msgCap) :
    (encodeRecord c.flen x y tag body).length ≤ c.recCap := by
  obtain ⟨-, -, -, -, hcap, -⟩ := h
  exact (length_encodeRecord_le htag hbody).trans hcap

/-! ## What a passed list of checks says (30_encoding.md R108, 41_modarith.md R131, 42_point.md R160) -/

section
variable {s : State} {l : List (Bool × CmdFault)}

@[simp] theorem firstFault_cons_eq_none {b : Bool} {F : CmdFault} :
    firstFault ((b, F) :: l) = none ↔ b = false ∧ firstFault l = none := by
  cases b <;> simp [firstFault]

@[simp] theorem firstFault_needParams :
    firstFault (needParams s :: l) = none ↔ s.status.pvalid = true ∧ firstFault l = none := by
  simp [needParams]

@[simp] theorem firstFault_needHash :
    firstFault (needHash s :: l) = none ↔ s.hsel < s.cfg.nhash ∧ firstFault l = none := by
  simp [needHash]

@[simp] theorem firstFault_needField {r : FReg} :
    firstFault (needField s r :: l) = none ↔ s.getF r < s.params.p ∧ firstFault l = none := by
  simp [needField]

@[simp] theorem firstFault_needMsgLen :
    firstFault (needMsgLen s :: l) = none ↔ s.regs.msglen.toNat ≤ s.cfg.msgCap ∧ firstFault l = none := by
  simp [needMsgLen]

end

/-! ## The cursors after a draw (45_engine.md R231) -/

/-- RNGPOS is where it was, or a delivery of the test source has moved it to at most RNGLEN. -/
def CursorFits (s : State) (c : Cursor) : Prop :=
  c.rngpos = s.regs.rngpos ∨ (s.testrng = true ∧ c.rngpos.toNat ≤ s.regs.rnglen.toNat)

theorem cursorFits_self (s : State) : CursorFits s s.cursor := .inl rfl

theorem cursorFits_drawFrom {P : Ports} {s : State} {c : Cursor} (h : CursorFits s c) :
    CursorFits s (s.drawFrom P c).2 := by
  rcases s.drawFrom_cases P c with ⟨ht, hle, hd⟩ | ⟨-, -, hd⟩ | ⟨-, hd⟩
  · have hlen := s.regs.rnglen.isLt
    rw [hd]
    exact .inr ⟨ht, by rw [BitVec.toNat_ofNat, Nat.mod_eq_of_lt (by omega)]; exact hle⟩
  · rw [hd]; exact h
  · rw [hd]; exact h

theorem cursorFits_encryptLoop {P : Ports} {s : State} (L fuel att : Nat) {c : Cursor} (h : CursorFits s c) :
    CursorFits s (encryptLoop P s L fuel att c).cur := by
  induction fuel generalizing att c with
  | zero => exact h
  | succ fuel ih =>
    have hdraw := cursorFits_drawFrom (P := P) h
    simp only [encryptLoop]
    split
    · next heq => rwa [heq] at hdraw
    · next heq =>
      rw [heq] at hdraw
      split
      · exact ih _ hdraw
      split
      · exact hdraw
      · exact ih _ hdraw
      · exact hdraw

/-- A delivered draw stands for FLEN bytes. -/
theorem drawFrom_lt {P : Ports} (hP : P.Lawful) {s : State} {c : Cursor} {k : Nat}
    (h : (s.drawFrom P c).1 = some k) : k < 256 ^ s.cfg.flen := by
  rcases s.drawFrom_cases P c with ⟨-, -, hd⟩ | ⟨-, -, hd⟩ | ⟨-, hd⟩ <;> rw [hd] at h
  · obtain rfl := Option.some.inj h
    simpa using os2ip_lt (s.mem.readBytes (Buffer.rngbuf.base + c.rngpos.toNat) s.cfg.flen)
  · exact absurd h (by simp)
  · obtain ⟨bs, hbs, rfl⟩ := Option.map_eq_some_iff.mp h
    have hlen := hP.2 _ _ _ hbs
    rw [← hlen]
    exact os2ip_lt bs

/-! ## What a command writes before it ends, said once -/

namespace State

/-- SETUP's first write (R121): PVALID <- 0. -/
def clearPvalid (s : State) : State := { s with status := { s.status with pvalid := false } }
/-- SETUP's writes when it accepts the parameters (R121). -/
def storeConsts (s : State) : State :=
  { s with consts := setupConsts s.cfg s.params.p, status := { s.status with pvalid := true } }
/-- The registers ZEROIZE clears (R123). -/
def clearRegs (s : State) : State :=
  { s with
    keys := { s.keys with d := 0 }
    f := Vector.replicate 16 0
    pt := Vector.replicate 4 .inf
    regs := { s.regs with msglen := 0, kslen := 0, seedlen := 0, rnglen := 0, rngpos := 0 } }
/-- ZEROIZE's writes (R123). -/
def zeroized (s : State) : State :=
  ((((s.clearRegs.clearBuf .msg).clearBuf .ks).clearBuf .seed).clearBuf .tag).clearBuf .rngbuf
/-- The write of CTSIZE and PTSIZE (R207, R215). -/
def setResult (s : State) (v : Word) : State := { s with regs := { s.regs with result := v } }
/-- The write of a command that writes a flag (R28). -/
def setFlags (s : State) (fl : Flags) : State := { s with flags := fl }
/-- RDEC's writes (R214). -/
def putFields (s : State) (rd ra : FReg) (r : Record) : State :=
  (((s.setF rd r.x1).setF ra r.y1).writeBuf .tag r.tag).putMessage r.body
/-- ENCRYPT's writes before a fault (R235). -/
def failRecord (s : State) (att : Nat) : State :=
  { (s.clearBuf .record).setAtt att with regs := { ((s.clearBuf .record).setAtt att).regs with reclen := 0 } }
/-- DECRYPT's writes before a fault (R245). -/
def failMessage (s : State) : State :=
  { s.clearBuf .msg with regs := { s.regs with msglen := 0 } }

end State

/-- `u` holds what the command has written to `s` when it completes without fault. -/
inductive CommandWrites (s : State) : Instr → State → Prop
  | nothing (i : Instr) : CommandWrites s i s
  | field (i : Instr) (r : FReg) (v : Nat) (hv : NumbersInv s → v < 2 ^ s.cfg.fieldBits) :
      CommandWrites s i (s.setF r v)
  | point (i : Instr) (j : PReg) (T : Triple) (hT : NumbersInv s → T.Below (2 ^ s.cfg.fieldBits)) :
      CommandWrites s i (s.setPt j T)
  | flags (i : Instr) (fl : Flags) (hi : writesFlags i = true) : CommandWrites s i (s.setFlags fl)
  | consts (h : setupRejects s.cfg.fieldBits s.params = false) : CommandWrites s .setup s.storeConsts
  | zeroized : CommandWrites s .zeroize s.zeroized
  | result (i : Instr) (v : Word) (hi : i = .ctsize ∨ i = .ptsize) : CommandWrites s i (s.setResult v)
  | keystream (bs : List Byte) (h : bs.length ≤ s.cfg.msgCap) : CommandWrites s .kdf (s.writeBuf .ks bs)
  | record (ra rb : FReg) (r : List Byte) (h : s.cfg.Legal → r.length ≤ s.cfg.recCap) :
      CommandWrites s (.renc ra rb) (s.putRecord r)
  | fields (rd ra : FReg) (r : Record) (hx : r.x1 < 256 ^ s.cfg.flen) (hy : r.y1 < 256 ^ s.cfg.flen)
      (htag : s.cfg.Legal → r.tag.length ≤ 64) (hbody : r.body.length ≤ s.cfg.msgCap) :
      CommandWrites s (.rdec rd ra) (s.putFields rd ra r)
  | encrypted (c : Cursor) (r : List Byte) (att : Nat) (hc : CursorFits s c)
      (h : s.cfg.Legal → r.length ≤ s.cfg.recCap) :
      CommandWrites s .encrypt (((s.setCursor c).putRecord r).setAtt att)
  | decrypted (m : List Byte) (h : m.length ≤ s.cfg.msgCap) : CommandWrites s .decrypt (s.putMessage m)
  | drawn (rd : FReg) (c : Cursor) (k : Nat) (hc : CursorFits s c) (hk : k < 256 ^ s.cfg.flen) :
      CommandWrites s (.draw rd) ((s.setCursor c).setF rd k)

/-- `u` holds what the command has written to `s` when it faults: four commands write before a fault (R262). -/
inductive FaultWrites (s : State) : Instr → State → Prop
  | nothing (i : Instr) : FaultWrites s i s
  | setup : FaultWrites s .setup s.clearPvalid
  | encrypt (c : Cursor) (att : Nat) (hc : CursorFits s c) :
      FaultWrites s .encrypt ((s.setCursor c).failRecord att)
  | decrypt : FaultWrites s .decrypt s.failMessage
  | draw (rd : FReg) (c : Cursor) (hc : CursorFits s c) : FaultWrites s (.draw rd) (s.setCursor c)

/-- How a command ends: it completes after its writes, or it faults. -/
inductive CommandEnds (s : State) (i : Instr) : State → Prop
  | completes {u : State} (h : CommandWrites s i u) : CommandEnds s i u.complete
  | faults {u : State} (h : FaultWrites s i u) (F : CmdFault) : CommandEnds s i (u.raise F)

theorem CommandEnds.guarded {s k : State} {i : Instr} {l : List (Bool × CmdFault)}
    (hk : firstFault l = none → CommandEnds s i k) : CommandEnds s i (s.guarded l k) := by
  rcases s.guarded_cases k l with ⟨hn, he⟩ | ⟨F, -, -, he⟩
  · rw [he]; exact hk hn
  · rw [he]; exact .faults (.nothing i) F

/-! ## The values the commands write fit their registers -/

/-- An odd number of full width is not the least one. -/
theorem two_pow_lt_of_odd {W p : Nat} (hW : 8 ≤ W) (hodd : p % 2 = 1) (hlo : 2 ^ (W - 1) ≤ p) : 2 ^ (W - 1) < p := by
  obtain ⟨n, hn⟩ : ∃ n, W - 1 = n + 1 := ⟨W - 2, by omega⟩
  rw [hn, Nat.pow_succ] at hlo ⊢
  omega

namespace NumbersInv

section
variable {s : State} (h : NumbersInv s)
include h

theorem legal : s.cfg.Legal := h.1
theorem get_lt (r : WideReg) : r.get s < 2 ^ s.cfg.fieldBits := h.2.1.1 r
theorem paramsInv : ParamsInv s := h.2.2

theorem width_ge : 8 ≤ s.cfg.fieldBits := by
  obtain ⟨⟨hW, -, -⟩, -⟩ := h.legal
  exact hW
theorem getF_lt (r : FReg) : s.getF r < 2 ^ s.cfg.fieldBits := h.get_lt (.f r)
theorem getPt_below (j : PReg) : (s.getPt j).Below (2 ^ s.cfg.fieldBits) :=
  ⟨h.get_lt (.ptX j), h.get_lt (.ptY j), h.get_lt (.ptZ j)⟩
theorem modulus_lt : s.params.p < 2 ^ s.cfg.fieldBits := h.get_lt .p
theorem one_lt_pow : 1 < 2 ^ s.cfg.fieldBits := Nat.one_lt_two_pow (by have := h.width_ge; omega)

variable (hv : s.status.pvalid = true)
include hv

theorem modulus_full : 2 ^ (s.cfg.fieldBits - 1) < s.params.p := by
  obtain ⟨⟨hodd, hlo, -⟩, -⟩ := h.paramsInv hv
  exact two_pow_lt_of_odd h.width_ge hodd hlo

theorem one_lt_modulus : 1 < s.params.p :=
  lt_of_le_of_lt Nat.one_le_two_pow (h.modulus_full hv)

theorem modulus_pos : 0 < s.params.p := (h.one_lt_modulus hv).le

theorem rr_lt : s.consts.rr < s.params.p := by
  obtain ⟨-, -, hrr, -⟩ := h.paramsInv hv
  rw [hrr]
  exact Nat.mod_lt _ (h.modulus_pos hv)

/-- MODRED's answer is a residue (R142). -/
theorem barrettReduce_lt {hi lo : Nat} (hhi : hi < 2 ^ s.cfg.fieldBits) (hlo : lo < 2 ^ s.cfg.fieldBits) :
    barrettReduce s.cfg.fieldBits s.params.p s.consts.mu (hi * 2 ^ s.cfg.fieldBits + lo) < s.params.p := by
  obtain ⟨-, -, -, hmu, -⟩ := h.paramsInv hv
  have hx : hi * 2 ^ s.cfg.fieldBits + lo < 2 ^ (2 * s.cfg.fieldBits) := by
    calc hi * 2 ^ s.cfg.fieldBits + lo < (hi + 1) * 2 ^ s.cfg.fieldBits := by rw [Nat.succ_mul]; omega
      _ ≤ 2 ^ s.cfg.fieldBits * 2 ^ s.cfg.fieldBits := Nat.mul_le_mul_right _ hhi
      _ = 2 ^ (2 * s.cfg.fieldBits) := by ring
  have hW := h.width_ge
  rw [barrettReduce_eq_mod (by omega) (h.modulus_full hv).le h.modulus_lt hmu hx]
  exact Nat.mod_lt _ (h.modulus_pos hv)

theorem scalarMul_below {k : Nat} {T : Triple} (hT : T.Below (2 ^ s.cfg.fieldBits)) :
    (s.scalarMul k T).Below (2 ^ s.cfg.fieldBits) :=
  jmul_below (h.modulus_pos hv) h.modulus_lt.le _ _ _ hT

end
end NumbersInv

/-- What R245's checks have found when they pass. -/
theorem decryptCheck_eq_ok {s : State} {L : Nat} (h : decryptCheck s = .ok L) :
    firstFault (decryptChecks s) = none ∧ plainLen s.recordBytes s.dlen s.ctrl.noempty = some L ∧
      firstFault (decryptLenChecks s L) = none := by
  simp only [decryptCheck] at h
  split at h
  · cases h
  · next hc =>
    split at h
    · cases h
    · next hL =>
      split at h
      · cases h
      · next hlen =>
        obtain rfl := Except.ok.inj h
        exact ⟨hc, hL, hlen⟩

/-- The message DECRYPT stores fits in MSG (R245's checks on L). -/
theorem length_decryptResult_le {P : Ports} {s : State} {m : List Byte} (h : decryptResult P s = .ok m) :
    m.length ≤ s.cfg.msgCap := by
  simp only [decryptResult] at h
  split at h
  · cases h
  · next L hL =>
    obtain ⟨-, -, hlen⟩ := decryptCheck_eq_ok hL
    simp only [decryptLenChecks, firstFault_cons_eq_none, decide_eq_false_iff_not, gt_iff_lt, not_lt] at hlen
    split at h
    · cases h
    · simp only [decryptBody] at h
      split_ifs at h
      obtain rfl := Except.ok.inj h
      rw [length_xorBytes]
      exact (min_le_right _ _).trans ((length_kdf_le _ _ _).trans hlen.2.1)

/-- ENCRYPT's record fits in REC: the ports answer digests of DLEN bytes (R82), and the message fits in MSG. -/
theorem length_encryptRecord_le {P : Ports} (hP : P.Lawful) {s : State} (hs : s.cfg.Legal)
    (hlen : s.regs.msglen.toNat ≤ s.cfg.msgCap) (r : Shared) :
    (encryptRecord P s s.plaintext r).length ≤ s.cfg.recCap := by
  refine length_encodeRecord_le_recCap hs ?_ ?_
  · rw [State.hashWith, hP.1]
    exact Config.digestLen_le hs _
  · rw [length_xorBytes]
    refine (min_le_left _ _).trans ?_
    simpa [State.plaintext, State.readBuf] using hlen

theorem encryptWith_ends {P : Ports} (hP : P.Lawful) (s : State) : CommandEnds s .encrypt (encryptWith P s) := by
  simp only [encryptWith]
  split
  · next F _ => exact .faults (.encrypt s.cursor 0 (cursorFits_self s)) F
  · next hc =>
    have hcur := cursorFits_encryptLoop (P := P) s.regs.msglen.toNat s.regs.maxatt.toNat 0 (cursorFits_self s)
    split
    · next F _ => exact .faults (.encrypt _ _ hcur) F
    · next r _ =>
      refine .completes (.encrypted _ _ _ hcur fun hs => length_encryptRecord_le hP hs ?_ r)
      simp only [encryptChecks, firstFault_needParams, firstFault_needHash, firstFault_needMsgLen] at hc
      obtain ⟨-, -, hlen, -⟩ := hc
      exact hlen

theorem decryptWith_ends (P : Ports) (s : State) : CommandEnds s .decrypt (decryptWith P s) := by
  simp only [decryptWith]
  split
  · next F _ => exact .faults .decrypt F
  · next m hm => exact .completes (.decrypted m (length_decryptResult_le hm))

theorem drawWith_ends {P : Ports} (hP : P.Lawful) (rd : FReg) (s : State) :
    CommandEnds s (.draw rd) (drawWith P rd s) := by
  have hcur := cursorFits_drawFrom (P := P) (cursorFits_self s)
  simp only [drawWith]
  split
  · next heq => rw [heq] at hcur; exact .faults (.draw rd _ hcur) _
  · next heq => rw [heq] at hcur; exact .completes (.drawn rd _ _ hcur (drawFrom_lt hP (by rw [heq])))

/-- The commands of R130 that need the parameters write a residue to a field register. -/
theorem CommandEnds.residue {s : State} {i : Instr} {r : FReg} {v : Nat} {l : List (Bool × CmdFault)}
    (hv : NumbersInv s → s.status.pvalid = true → firstFault l = none → v < s.params.p) :
    CommandEnds s i (s.guarded (needParams s :: l) (s.setF r v).complete) := by
  refine .guarded fun hc => .completes (.field i r v fun hn => ?_)
  obtain ⟨hp, hl⟩ := firstFault_needParams.mp hc
  exact (hv hn hp hl).trans hn.modulus_lt

/-- The commands of R160 that need the parameters write a triple that fits to a point register. -/
theorem CommandEnds.triple {s : State} {i : Instr} {j : PReg} {T : Triple} {l : List (Bool × CmdFault)}
    (hT : NumbersInv s → s.status.pvalid = true → T.Below (2 ^ s.cfg.fieldBits)) :
    CommandEnds s i (s.guarded (needParams s :: l) (s.setPt j T).complete) :=
  .guarded fun hc => .completes (.point i j T fun hn => hT hn (firstFault_needParams.mp hc).1)

/-- Everything a command can do. -/
theorem exec_ends (i : Instr) (s : State) : ∃ t, exec i s = .next t ∧ CommandEnds s i t := by
  cases i with
  | nop => exact ⟨_, rfl, .completes (.nothing _)⟩
  | setup =>
    refine ⟨_, rfl, ?_⟩
    split
    · exact .faults .setup .badParam
    · next h => exact .completes (.consts (by simpa using h))
  | zeroize => exact ⟨_, rfl, .completes .zeroized⟩
  | modadd rd ra rb =>
    refine ⟨_, rfl, .residue fun _ _ hl => ?_⟩
    simp only [firstFault_needField] at hl
    obtain ⟨ha, hb, -⟩ := hl
    exact modAdd_lt ha hb
  | modsub rd ra rb =>
    refine ⟨_, rfl, .residue fun _ _ hl => ?_⟩
    simp only [firstFault_needField] at hl
    obtain ⟨ha, hb, -⟩ := hl
    exact modSub_lt ha hb
  | modmul rd ra rb => exact ⟨_, rfl, .residue fun hn hp _ => montMul_lt (hn.rr_lt hp) _ _ _ _⟩
  | modsqr rd ra => exact ⟨_, rfl, .residue fun hn hp _ => montMul_lt (hn.rr_lt hp) _ _ _ _⟩
  | montmul rd ra rb =>
    refine ⟨_, rfl, .residue fun _ _ hl => ?_⟩
    simp only [firstFault_needField] at hl
    obtain ⟨-, hb, -⟩ := hl
    exact montMul_lt hb _ _ _ _
  | tomont rd ra => exact ⟨_, rfl, .residue fun hn hp _ => montMul_lt (hn.rr_lt hp) _ _ _ _⟩
  | frommont rd ra => exact ⟨_, rfl, .residue fun hn hp _ => montMul_lt (hn.one_lt_modulus hp) _ _ _ _⟩
  | modred rd ra rb =>
    exact ⟨_, rfl, .residue fun hn hp _ => hn.barrettReduce_lt hp (hn.getF_lt ra) (hn.getF_lt rb)⟩
  | modinv rd ra => exact ⟨_, rfl, .residue fun hn hp _ => fermatInv_lt (hn.one_lt_modulus hp) _ _⟩
  | cmp ra rb => exact ⟨_, rfl, .completes (.flags _ _ rfl)⟩
  | mov rd ra => exact ⟨_, rfl, .completes (.field _ _ _ fun hn => hn.getF_lt ra)⟩
  | ldi rd imm => exact ⟨_, rfl, .completes (.field _ _ _ fun _ => Nat.mod_lt _ (Nat.two_pow_pos _))⟩
  | pdbl rd ra =>
    exact ⟨_, rfl, .triple fun hn hp => (jdbl_below (hn.modulus_pos hp) _ _).mono hn.modulus_lt.le⟩
  | padd rd ra rb =>
    exact ⟨_, rfl, .triple fun hn hp =>
      jadd_below (hn.modulus_pos hp) hn.modulus_lt.le _ (hn.getPt_below ra) (hn.getPt_below rb)⟩
  | paff rd ra =>
    exact ⟨_, rfl, .triple fun hn hp =>
      ⟨(mulP_lt (hn.modulus_pos hp) _ _).trans hn.modulus_lt, (mulP_lt (hn.modulus_pos hp) _ _).trans hn.modulus_lt,
        hn.one_lt_pow⟩⟩
  | peq ra rb => exact ⟨_, rfl, .guarded fun _ => .completes (.flags _ _ rfl)⟩
  | pisinf ra => exact ⟨_, rfl, .completes (.flags _ _ rfl)⟩
  | psetinf rd => exact ⟨_, rfl, .completes (.point _ _ _ fun _ => Triple.inf_below (Nat.two_pow_pos _))⟩
  | pldg rd => exact ⟨_, rfl, .completes (.point _ _ _ fun hn => ⟨hn.get_lt .gx, hn.get_lt .gy, hn.one_lt_pow⟩)⟩
  | pldq rd => exact ⟨_, rfl, .completes (.point _ _ _ fun hn => ⟨hn.get_lt .qx, hn.get_lt .qy, hn.one_lt_pow⟩)⟩
  | pmov rd ra => exact ⟨_, rfl, .completes (.point _ _ _ fun hn => hn.getPt_below ra)⟩
  | pset rd ra rb =>
    exact ⟨_, rfl, .completes (.point _ _ _ fun hn => ⟨hn.getF_lt ra, hn.getF_lt rb, hn.one_lt_pow⟩)⟩
  | pget rd ra sel =>
    refine ⟨_, rfl, .completes (.field _ _ _ fun hn => ?_)⟩
    obtain ⟨hx, hy, hz⟩ := hn.getPt_below ra
    cases sel with
    | x => exact hx
    | y => exact hy
    | z => exact hz
  | onc ra rb => exact ⟨_, rfl, .guarded fun _ => .completes (.flags _ _ rfl)⟩
  | pmul rd ra rb => exact ⟨_, rfl, .triple fun hn hp => hn.scalarMul_below hp (hn.getPt_below ra)⟩
  | schk ra => exact ⟨_, rfl, .guarded fun _ => .completes (.nothing _)⟩
  | kdf =>
    refine ⟨_, rfl, .guarded fun hc => .completes (.keystream _ ((length_kdf_le _ _ _).trans ?_))⟩
    simp only [kdfChecks, firstFault_needHash, firstFault_cons_eq_none, decide_eq_false_iff_not, not_lt,
      gt_iff_lt] at hc
    obtain ⟨-, -, hlen, -⟩ := hc
    exact hlen
  | renc ra rb =>
    refine ⟨_, rfl, .guarded fun hc => .completes (.record _ _ _ fun hs => length_encodeRecord_le_recCap hs ?_ ?_)⟩
    · rw [State.readBuf, Memory.length_readBytes]
      exact Config.digestLen_le hs _
    · simp only [firstFault_needHash, firstFault_needMsgLen] at hc
      simpa [State.readBuf] using hc.2.1
  | rdec rd ra =>
    refine ⟨_, rfl, .guarded fun _ => ?_⟩
    split
    · exact .faults (.nothing _) _
    · next r hr =>
      obtain ⟨hx, hy, htag⟩ := decodeRecord_spec hr
      split
      · exact .faults (.nothing _) _
      · next hbody =>
        have hfit (hs : s.cfg.Legal) := htag.le.trans (Config.digestLen_le hs _)
        exact .completes (.fields rd ra r hx hy hfit (by simpa using hbody))
  | ctsize => exact ⟨_, rfl, .guarded fun _ => .completes (.result _ _ (.inl rfl))⟩
  | ptsize =>
    refine ⟨_, rfl, .guarded fun _ => ?_⟩
    split
    · exact .faults (.nothing _) _
    · exact .completes (.result _ _ (.inr rfl))
  | encrypt => exact ⟨_, rfl, encryptWith_ends Ports.free_lawful s⟩
  | decrypt => exact ⟨_, rfl, decryptWith_ends .free s⟩
  | draw rd => exact ⟨_, rfl, drawWith_ends Ports.free_lawful rd s⟩

theorem commandEnds_of_exec {i : Instr} {s t : State} (h : exec i s = .next t) : CommandEnds s i t := by
  obtain ⟨t', ht', he⟩ := exec_ends i s
  rw [ht', Host.Outcome.next.injEq] at h
  rwa [← h]

/-! ## What a host access can do, said once (20_memory.md R76 to R79, 70_reset_and_hazards.md R290) -/

namespace State

/-- The four lanes of a word write from 0x100 on (R75, R77). -/
def storeWord (s : State) (a : Nat) (v : Word) : State :=
  (((s.busSetByte a (laneOf v 0)).busSetByte (a + 1) (laneOf v 1)).busSetByte (a + 2) (laneOf v 2)).busSetByte (a + 3)
    (laneOf v 3)

theorem writeIdle_of_le {s : State} {a : Nat} (v : Word) (h : 0x100 ≤ a) :
    s.writeIdle a v = if s.clearsPvalid a then (s.storeWord a v).clearPvalid else s.storeWord a v := by
  rw [writeIdle, if_neg h.not_gt]
  rfl

theorem writeIdle_control {s : State} {a : Nat} {r : CtlReg} (v : Word) (h : a < 0x100) (hr : CtlReg.at a = some r) :
    s.writeIdle a v = r.write s v := by
  simp only [writeIdle, if_pos h, hr]

theorem writeIdle_reserved {s : State} {a : Nat} (v : Word) (h : a < 0x100) (hr : CtlReg.at a = none) :
    s.writeIdle a v = s := by
  simp only [writeIdle, if_pos h, hr]

end State

/-- A host write of a wide register touches the groups (a), (b), (d), (e) of R20 and nothing else. -/
theorem WideReg.set_frame (s : State) (v : Nat) (r : WideReg) :
    ∃ params keys f pt, r.set s v = { s with params := params, keys := keys, f := f, pt := pt } := by
  cases r <;> exact ⟨_, _, _, _, rfl⟩

namespace State

section
variable {s : State} {a : Nat} (b : Byte)

theorem busSetByte_register {r : WideReg} (h : slotReg (a / 64) = some r) (ho : a % 64 < s.cfg.flen) :
    s.busSetByte a b = r.set s (setByteAt (r.get s) s.cfg.flen (a % 64) b) := by
  simp only [busSetByte, h, if_pos ho]

theorem busSetByte_beyond {r : WideReg} (h : slotReg (a / 64) = some r) (ho : s.cfg.flen ≤ a % 64) :
    s.busSetByte a b = s := by
  simp only [busSetByte, h, if_neg ho.not_gt]

theorem busSetByte_buffer (h : slotReg (a / 64) = none) (hb : inBuffer s.cfg a = true) :
    s.busSetByte a b = { s with mem := s.mem.write a b } := by
  simp only [busSetByte, h, if_pos hb]

theorem busSetByte_reserved (h : slotReg (a / 64) = none) (hb : inBuffer s.cfg a = false) : s.busSetByte a b = s := by
  simp only [busSetByte, h, hb, Bool.false_eq_true, if_false]

end

theorem busSetByte_frame (s : State) (a : Nat) (b : Byte) :
    ∃ params keys f pt mem, s.busSetByte a b =
      { s with params := params, keys := keys, f := f, pt := pt, mem := mem } := by
  cases hslot : slotReg (a / 64) with
  | some r =>
    rcases Nat.lt_or_ge (a % 64) s.cfg.flen with ho | ho
    · obtain ⟨params, keys, f, pt, h⟩ := WideReg.set_frame s (setByteAt (r.get s) s.cfg.flen (a % 64) b) r
      exact ⟨params, keys, f, pt, s.mem, by rw [busSetByte_register b hslot ho, h]⟩
    · exact ⟨_, _, _, _, _, busSetByte_beyond b hslot ho⟩
  | none =>
    cases hb : inBuffer s.cfg a with
    | true => exact ⟨_, _, _, _, _, busSetByte_buffer b hslot hb⟩
    | false => exact ⟨_, _, _, _, _, busSetByte_reserved b hslot hb⟩

/-- The four lanes one after the other: `P n` is what holds once `n` of them are stored. -/
theorem storeWord_lanes {P : Nat → State → Prop} {s : State} {a : Nat} {v : Word}
    (hlane : ∀ u j, j < 4 → P j u → P (j + 1) (u.busSetByte (a + j) (laneOf v j))) (h : P 0 s) :
    P 4 (s.storeWord a v) :=
  hlane _ 3 (by omega) (hlane _ 2 (by omega) (hlane _ 1 (by omega) (hlane _ 0 (by omega) h)))

/-- What every byte write to a byte of the word at `a` keeps, the word write keeps. -/
theorem storeWord_keeps {P : State → Prop} {s : State} {a : Nat} (v : Word)
    (hbyte : ∀ u j b, j < 4 → P u → P (u.busSetByte (a + j) b)) (h : P s) : P (s.storeWord a v) :=
  storeWord_lanes (P := fun _ => P) (fun u j => hbyte u j _) h

/-- A word write from 0x100 on touches no control register but PVALID, and no scratch. -/
theorem storeWord_frame (s : State) (a : Nat) (v : Word) :
    ∃ params keys f pt mem, s.storeWord a v =
      { s with params := params, keys := keys, f := f, pt := pt, mem := mem } := by
  refine storeWord_keeps (P := fun u => ∃ params keys f pt mem, u =
    { s with params := params, keys := keys, f := f, pt := pt, mem := mem }) v ?_ ⟨_, _, _, _, _, rfl⟩
  rintro u j b - ⟨_, _, _, _, _, rfl⟩
  exact busSetByte_frame _ _ b

end State

/-- An idle write of a control register other than CMD and STATUS touches CTRL, the lengths and cursors, or COF. -/
theorem CtlReg.write_frame (s : State) (v : Word) {r : CtlReg} (hcmd : r ≠ .cmd) (hstatus : r ≠ .status) :
    ∃ ctrl regs cof, r.write s v = { s with ctrl := ctrl, regs := regs, params := { s.params with cof := cof } } ∧
      regs.errcode = s.regs.errcode := by
  cases r with
  | cmd => exact absurd rfl hcmd
  | status => exact absurd rfl hstatus
  | rnglen | rngpos =>
    simp only [CtlReg.write]
    split
    · exact ⟨_, _, _, rfl, rfl⟩
    · exact ⟨_, _, _, rfl, rfl⟩
  | _ => exact ⟨_, _, _, rfl, rfl⟩

/-- How an access of the host can leave the state. -/
inductive HostEnds (s : State) : State → Prop
  | resets : HostEnds s s.hostReset
  | ignores : HostEnds s s
  | replies (w : Word) : HostEnds s { s with reply := w }
  | drops : HostEnds s s.setDrop
  | dropsRead : HostEnds s { s.setDrop with reply := 0 }
  | acknowledges (v : Word) : HostEnds s (s.acknowledge v)
  | accepts (w : Word) (hb : s.status.busy = false) (he : s.status.err = false) : HostEnds s (s.acceptWord w)
  | control (r : CtlReg) (v : Word) (hb : s.status.busy = false) (hcmd : r ≠ .cmd) (hstatus : r ≠ .status) :
      HostEnds s (r.write s v)
  | stores (a : Nat) (v : Word) (hb : s.status.busy = false) (ha : a % 4 = 0) (hlo : 0x100 ≤ a)
      (hc : s.clearsPvalid a = false) : HostEnds s (s.storeWord a v)
  | storesParam (a : Nat) (v : Word) (hb : s.status.busy = false) (ha : a % 4 = 0) (hlo : 0x100 ≤ a)
      (hc : s.clearsPvalid a = true) : HostEnds s (s.storeWord a v).clearPvalid

theorem CtlReg.write_ends (s : State) (v : Word) (r : CtlReg) (hb : s.status.busy = false) :
    HostEnds s (r.write s v) := by
  by_cases hcmd : r = .cmd
  · subst hcmd
    simp only [CtlReg.write]
    split
    · exact .drops
    · next he => exact .accepts v hb (by simpa using he)
  by_cases hstatus : r = .status
  · subst hstatus
    exact .acknowledges v
  · exact .control r v hb hcmd hstatus

theorem State.writeIdle_ends (s : State) (a : Nat) (v : Word) (hb : s.status.busy = false) (ha : a % 4 = 0) :
    HostEnds s (s.writeIdle a v) := by
  rcases Nat.lt_or_ge a 0x100 with h | h
  · cases hr : CtlReg.at a with
    | some r => rw [writeIdle_control v h hr]; exact CtlReg.write_ends s v r hb
    | none => rw [writeIdle_reserved v h hr]; exact .ignores
  · rw [writeIdle_of_le v h]
    split
    · next hc => exact .storesParam a v hb ha h hc
    · next hc => exact .stores a v hb ha h (by simpa using hc)

/-- Everything a host access can do. -/
theorem State.hostAccess_ends (s : State) (a : Access) : HostEnds s (s.hostAccess a) := by
  cases a with
  | reset => exact .resets
  | read addr bytes =>
    simp only [State.hostAccess]
    split
    · exact .dropsRead
    · exact .replies _
  | write addr bytes v =>
    simp only [State.hostAccess]
    split
    · exact .drops
    · next hal =>
      split
      · split
        · exact .acknowledges v
        · exact .drops
      · next hb =>
        refine s.writeIdle_ends addr.toNat v (by simpa using hb) ?_
        simp only [aligned, Bool.not_eq_true', Bool.not_eq_false, Bool.and_eq_true, beq_iff_eq] at hal
        exact hal.2

/-! ## An invariant of every step -/

theorem step_of_phase_turn {s : State} {rest : List Turn} (h : s.turns = .phase :: rest) :
    step s = .next (seqAdvance .free { s with turns := rest }) := by
  simp [step, h]

theorem step_of_host_turn {s : State} {rest : List Turn} {a : Access} (h : s.turns = .host a :: rest) :
    step s = .next (({ s with turns := rest } : State).hostAccess a) := by
  simp [step, h]

theorem seqAdvance_of_idle (P : Ports) {s : State} (hb : s.status.busy = false) : seqAdvance P s = s := by
  simp [seqAdvance, hb]

/-- What every step keeps: it is enough that the ends of the commands, the moves of the sequencer and the accesses of
the host keep it, and that it does not speak of the schedule. -/
theorem step_keeps {Inv : State → Prop} (hturns : ∀ s rest, Inv s → Inv { s with turns := rest })
    (hcommand : ∀ s i t, s.status.busy = true → Inv s → CommandEnds s i t → Inv t)
    (hphase : ∀ s ph c, s.status.busy = true → Inv s → Inv { s with phase := ph, scratch := c })
    (hhost : ∀ s t, Inv s → HostEnds s t → Inv t) {s t : State} (h : Inv s) (hstep : step s = .next t) : Inv t := by
  obtain ⟨rest, -, hcases⟩ := step_cases hstep
  have hrest := hturns s rest h
  have hbusy : ({ s with turns := rest } : State).status.busy = s.status.busy := rfl
  generalize ({ s with turns := rest } : State) = u at hcases hrest hbusy
  rw [← hbusy] at hcases
  rcases hcases with ⟨-, ⟨-, rfl⟩ | ⟨hb, i, -, hexec⟩ | ⟨hb, e, -, rfl⟩⟩ | ⟨-, rfl⟩ | ⟨a, -, rfl⟩
  · exact hrest
  · exact hcommand u i t hb hrest (commandEnds_of_exec hexec)
  · exact hcommand u .nop _ hb hrest (.faults (.nothing .nop) .illegalCommand)
  · cases hb : u.status.busy with
    | false => rwa [seqAdvance_of_idle .free hb]
    | true =>
      obtain ⟨ph, c, he⟩ := seqAdvance_frame .free u
      rw [he]
      exact hphase u ph c hb hrest
  · exact hhost u _ hrest (u.hostAccess_ends a)

/-! ## PHASE and the scratch while idle (10_state.md R27, R46) -/

theorem idleInv_of_commandEnds {s t : State} {i : Instr} (h : CommandEnds s i t) : IdleInv t := by
  cases h with
  | completes _ => exact fun _ => ⟨rfl, rfl⟩
  | faults _ _ => exact fun _ => ⟨rfl, rfl⟩

theorem idleInv_congr {s t : State} (h : IdleInv s) (hb : t.status.busy = s.status.busy) (hp : t.phase = s.phase)
    (hc : t.scratch = s.scratch) : IdleInv t := by
  intro hi
  rw [hp, hc]
  exact h (by rwa [← hb])

theorem idleInv_of_hostEnds {s t : State} (h : IdleInv s) (ht : HostEnds s t) : IdleInv t := by
  cases ht with
  | resets => exact fun _ => ⟨rfl, rfl⟩
  | accepts w _ _ => intro hi; simp at hi
  | control r v _ hcmd hstatus =>
    obtain ⟨_, _, _, he, -⟩ := CtlReg.write_frame s v hcmd hstatus
    rw [he]
    exact idleInv_congr h rfl rfl rfl
  | stores a v _ _ _ _ | storesParam a v _ _ _ _ =>
    obtain ⟨_, _, _, _, _, he⟩ := s.storeWord_frame a v
    rw [he]
    exact idleInv_congr h rfl rfl rfl
  | _ => exact idleInv_congr h rfl rfl rfl

/-- Settles O35: every command ends idle with the scratch cleared, only acceptance leaves IDLE, and it sets BUSY. -/
theorem idleScratchStaysZero : Obligations.IdleScratchStaysZero := by
  intro s t
  refine step_keeps (fun s rest h => idleInv_congr h rfl rfl rfl) (fun s i t _ _ ht => idleInv_of_commandEnds ht) ?_
    (fun s t => idleInv_of_hostEnds)
  intro s ph c hb _ hi
  exact absurd hi (by simp [hb])

/-! ## ERR and ERRCODE (10_state.md R33, 60_exceptions.md R261, R266) -/

/-- No command touches ERR or ERRCODE before it ends. -/
theorem CommandWrites.err_eq {s u : State} {i : Instr} (h : CommandWrites s i u) :
    u.status.err = s.status.err ∧ u.regs.errcode = s.regs.errcode := by
  cases h <;> exact ⟨rfl, rfl⟩

theorem CmdFault.code_range (F : CmdFault) : F.code ≠ 0 ∧ F.code.toNat ≤ 0x0D := by
  cases F <;> decide

theorem faultInv_congr {s t : State} (h : FaultInv s) (herr : t.status.err = s.status.err)
    (hcode : t.regs.errcode = s.regs.errcode) (hbusy : t.status.busy = true → s.status.busy = true) : FaultInv t := by
  obtain ⟨hiff, hle, hrun⟩ := h
  exact ⟨by rw [herr, hcode]; exact hiff, by rw [hcode]; exact hle, fun hb => by rw [herr]; exact hrun (hbusy hb)⟩

theorem faultInv_raise (u : State) (F : CmdFault) : FaultInv (u.raise F) := by
  obtain ⟨hne, hle⟩ := F.code_range
  exact ⟨by simpa using hne, hle, by simp⟩

theorem faultInv_of_commandEnds {s t : State} {i : Instr} (h : FaultInv s) (ht : CommandEnds s i t) : FaultInv t := by
  cases ht with
  | completes hu =>
    obtain ⟨herr, hcode⟩ := hu.err_eq
    exact faultInv_congr h herr hcode (by simp)
  | faults _ F => exact faultInv_raise _ F

theorem faultInv_acknowledge {s : State} (h : FaultInv s) (v : Word) : FaultInv (s.acknowledge v) := by
  cases hv : v.getLsbD 2 with
  | true =>
    have herr : (s.acknowledge v).status.err = false := by
      simp only [State.acknowledge_status, hv, Bool.not_true, Bool.and_false]
    have hcode : (s.acknowledge v).regs.errcode = 0 := by simp only [State.acknowledge_regs, hv, if_true]
    refine ⟨?_, ?_, fun _ => herr⟩ <;> rw [hcode]
    · simp only [herr]
    · decide
  | false =>
    refine faultInv_congr h ?_ ?_ id
    · simp only [State.acknowledge_status, hv, Bool.not_false, Bool.and_true]
    · simp only [State.acknowledge_regs, hv, Bool.false_eq_true, if_false]

theorem faultInv_of_hostEnds {s t : State} (h : FaultInv s) (ht : HostEnds s t) : FaultInv t := by
  cases ht with
  | resets => exact ⟨by simp [State.resetOf], by simp [State.resetOf], by simp [State.resetOf]⟩
  | accepts w _ he =>
    obtain ⟨hiff, hle, -⟩ := h
    exact ⟨hiff, hle, fun _ => he⟩
  | acknowledges v => exact faultInv_acknowledge h v
  | control r v _ hcmd hstatus =>
    obtain ⟨_, _, _, he, hcode⟩ := CtlReg.write_frame s v hcmd hstatus
    rw [he]
    exact faultInv_congr h rfl hcode id
  | stores a v _ _ _ _ | storesParam a v _ _ _ _ =>
    obtain ⟨_, _, _, _, _, he⟩ := s.storeWord_frame a v
    rw [he]
    exact faultInv_congr h rfl rfl id
  | _ => exact faultInv_congr h rfl rfl id

/-- Settles O36: ERR and ERRCODE are set together by a fault and cleared together by the acknowledgement, and a word is
accepted only while ERR = 0. -/
theorem faultStatusInvariantIsKept : Obligations.FaultStatusInvariantIsKept := by
  intro s t
  exact step_keeps (fun s rest h => faultInv_congr h rfl rfl id) (fun s i t _ => faultInv_of_commandEnds)
    (fun s ph c _ h => faultInv_congr h rfl rfl id) (fun s t => faultInv_of_hostEnds)

/-! ## The test source (10_state.md R42, 60_exceptions.md R275) -/

theorem testSourceInv_congr {s t : State} (h : TestSourceInv s) (hcfg : t.cfg = s.cfg) (hctrl : t.ctrl = s.ctrl)
    (hlen : t.regs.rnglen = s.regs.rnglen) (hpos : t.regs.rngpos = s.regs.rngpos) : TestSourceInv t := by
  rw [TestSourceInv, hcfg, hctrl, hlen, hpos]
  exact h

theorem testSourceInv_complete {u : State} (h : TestSourceInv u) : TestSourceInv u.complete := h

theorem testSourceInv_raise {u : State} (h : TestSourceInv u) (F : CmdFault) : TestSourceInv (u.raise F) := h

/-- A cursor that a draw has moved stays within RNGLEN, and stays away with TEST_EN = 0. -/
theorem testSourceInv_setCursor {s : State} (h : TestSourceInv s) {c : Cursor} (hc : CursorFits s c) :
    TestSourceInv (s.setCursor c) := by
  rcases hc with hpos | ⟨ht, hle⟩
  · exact testSourceInv_congr h rfl rfl rfl hpos
  · obtain ⟨hlen, -, -⟩ := h
    simp only [State.testrng, Bool.and_eq_true] at ht
    exact ⟨hlen, hle.trans hlen, fun hoff => absurd ht.2 (by simpa using hoff)⟩

theorem testSourceInv_zeroized {s : State} (h : TestSourceInv s) : TestSourceInv s.zeroized := by
  obtain ⟨-, -, hoff⟩ := h
  refine ⟨Nat.zero_le _, Nat.zero_le _, fun h0 => ⟨rfl, rfl, ?_⟩⟩
  obtain ⟨-, -, htest⟩ := hoff h0
  exact htest

theorem testSourceInv_of_commandEnds {s t : State} {i : Instr} (h : TestSourceInv s) (ht : CommandEnds s i t) :
    TestSourceInv t := by
  cases ht with
  | completes hu =>
    refine testSourceInv_complete ?_
    cases hu with
    | zeroized => exact testSourceInv_zeroized h
    | encrypted c _ _ hc _ => exact testSourceInv_congr (testSourceInv_setCursor h hc) rfl rfl rfl rfl
    | drawn _ c _ hc _ => exact testSourceInv_congr (testSourceInv_setCursor h hc) rfl rfl rfl rfl
    | _ => exact testSourceInv_congr h rfl rfl rfl rfl
  | faults hu F =>
    refine testSourceInv_raise ?_ F
    cases hu with
    | encrypt c _ hc => exact testSourceInv_congr (testSourceInv_setCursor h hc) rfl rfl rfl rfl
    | draw _ c hc => exact testSourceInv_setCursor h hc
    | _ => exact testSourceInv_congr h rfl rfl rfl rfl

theorem saturate256_le (v : Word) : (saturate256 v).toNat ≤ 256 := by
  rw [saturate256, BitVec.toNat_ofNat]
  omega

theorem testSourceInv_control {s : State} (h : TestSourceInv s) (v : Word) {r : CtlReg} (hcmd : r ≠ .cmd)
    (hstatus : r ≠ .status) : TestSourceInv (r.write s v) := by
  obtain ⟨hlen, hpos, hoff⟩ := h
  cases r with
  | cmd => exact absurd rfl hcmd
  | status => exact absurd rfl hstatus
  | ctrl =>
    refine ⟨hlen, hpos, fun (h : s.cfg.testEn = false) => ?_⟩
    obtain ⟨hlen0, hpos0, htest⟩ := hoff h
    refine ⟨hlen0, hpos0, ?_⟩
    simp only [CtlReg.write, h, Bool.false_eq_true, if_false, htest]
  | rnglen =>
    simp only [CtlReg.write]
    split
    · next hon => exact ⟨saturate256_le v, hpos, fun h => absurd hon (by simpa using h)⟩
    · exact ⟨hlen, hpos, hoff⟩
  | rngpos =>
    simp only [CtlReg.write]
    split
    · next hon => exact ⟨hlen, saturate256_le v, fun h => absurd hon (by simpa using h)⟩
    · exact ⟨hlen, hpos, hoff⟩
  | _ => exact ⟨hlen, hpos, hoff⟩

theorem testSourceInv_of_hostEnds {s t : State} (h : TestSourceInv s) (ht : HostEnds s t) : TestSourceInv t := by
  cases ht with
  | resets => exact ⟨Nat.zero_le _, Nat.zero_le _, fun _ => ⟨rfl, rfl, rfl⟩⟩
  | control r v _ hcmd hstatus => exact testSourceInv_control h v hcmd hstatus
  | stores a v _ _ _ _ | storesParam a v _ _ _ _ =>
    obtain ⟨_, _, _, _, _, he⟩ := s.storeWord_frame a v
    rw [he]
    exact testSourceInv_congr h rfl rfl rfl rfl
  | _ => exact testSourceInv_congr h rfl rfl rfl rfl

/-- Settles O37: only a draw of the test source and the host move the cursors, a draw to at most RNGLEN and the
host to at most 256, and neither with TEST_EN = 0. -/
theorem testSourceInvariantIsKept : Obligations.TestSourceInvariantIsKept := by
  intro s t
  exact step_keeps (fun s rest h => testSourceInv_congr h rfl rfl rfl rfl)
    (fun s i t _ => testSourceInv_of_commandEnds) (fun s ph c _ h => testSourceInv_congr h rfl rfl rfl rfl)
    (fun s t => testSourceInv_of_hostEnds)

/-! ## One byte of a big-endian image (00_scope.md R11, 10_state.md R26) -/

/-- The bytes before byte `i`, and what lies above the image, stay. -/
theorem setByteAt_div {n i k : Nat} (hi : i < n) (hk : n - i ≤ k) (v : Nat) (b : Byte) :
    setByteAt v n i b / 256 ^ k = v / 256 ^ k := by
  obtain ⟨m, rfl⟩ : ∃ m, k = (n - 1 - i + 1) + m := ⟨k - (n - i), by omega⟩
  have hb := b.isLt
  have hlow := Nat.mod_lt v (show 0 < 256 ^ (n - 1 - i) by positivity)
  have hsmall : b.toNat * 256 ^ (n - 1 - i) + v % 256 ^ (n - 1 - i) < 256 ^ (n - 1 - i) * 256 := by
    have : b.toNat * 256 ^ (n - 1 - i) ≤ 255 * 256 ^ (n - 1 - i) := Nat.mul_le_mul_right _ (by omega)
    omega
  rw [Nat.pow_add, Nat.pow_succ, ← Nat.div_div_eq_div_mul, ← Nat.div_div_eq_div_mul v]
  congr 1
  rw [setByteAt, Nat.add_assoc, Nat.add_comm, Nat.add_mul_div_right _ _ (by positivity), Nat.div_eq_of_lt hsmall,
    Nat.zero_add]

/-- The bytes after byte `i` stay. -/
theorem setByteAt_mod {n i k : Nat} (hk : k ≤ n - 1 - i) (v : Nat) (b : Byte) :
    setByteAt v n i b % 256 ^ k = v % 256 ^ k := by
  obtain ⟨m, hm⟩ : ∃ m, n - 1 - i = k + m := ⟨n - 1 - i - k, by omega⟩
  have hdvd : 256 ^ k ∣ 256 ^ (n - 1 - i) := pow_dvd_pow _ hk
  rw [setByteAt, Nat.add_mod, Nat.mod_mod_of_dvd _ hdvd]
  have : (v / (256 ^ (n - 1 - i) * 256) * (256 ^ (n - 1 - i) * 256) + b.toNat * 256 ^ (n - 1 - i)) % 256 ^ k = 0 :=
    Nat.mod_eq_zero_of_dvd (Nat.dvd_add ((hdvd.mul_right 256).mul_left _) (hdvd.mul_left _))
  rw [this, Nat.zero_add, Nat.mod_mod]

/-- Byte `i` is the one stored. -/
theorem setByteAt_byte (n i v : Nat) (b : Byte) : setByteAt v n i b / 256 ^ (n - 1 - i) % 256 = b.toNat := by
  have hpos : 0 < 256 ^ (n - 1 - i) := by positivity
  have hb := b.isLt
  have hdiv : setByteAt v n i b / 256 ^ (n - 1 - i) = v / (256 ^ (n - 1 - i) * 256) * 256 + b.toNat := by
    have : setByteAt v n i b =
        v % 256 ^ (n - 1 - i) + (v / (256 ^ (n - 1 - i) * 256) * 256 + b.toNat) * 256 ^ (n - 1 - i) := by
      rw [setByteAt]; ring
    rw [this, Nat.add_mul_div_right _ _ hpos, Nat.div_eq_of_lt (Nat.mod_lt _ hpos), Nat.zero_add]
  omega

theorem setByteAt_lt {n i v : Nat} (hi : i < n) (hv : v < 256 ^ n) (b : Byte) : setByteAt v n i b < 256 ^ n := by
  rw [← Nat.div_eq_zero_iff_lt (by positivity), setByteAt_div hi (by omega), Nat.div_eq_of_lt hv]

/-! ## A wide register after a host write (10_state.md R26, 20_memory.md R71) -/

theorem WideReg.get_congr {s t : State} (hparams : t.params = s.params) (hkeys : t.keys = s.keys)
    (hconsts : t.consts = s.consts) (hf : t.f = s.f) (hpt : t.pt = s.pt) (q : WideReg) : q.get t = q.get s := by
  cases q <;> simp only [WideReg.get, State.getF, State.getPt, hparams, hkeys, hconsts, hf, hpt]

namespace WideReg

theorem get_set_same (s : State) (v : Nat) {r : WideReg} (hrr : r ≠ .rr) (hmu : r ≠ .mu) : r.get (r.set s v) = v := by
  cases r with
  | rr => exact absurd rfl hrr
  | mu => exact absurd rfl hmu
  | f r => exact State.getF_setF_same s r v
  | ptX j | ptY j | ptZ j => simp only [get, set, State.getPt_setPt_same]
  | _ => rfl

theorem get_setF_of_ne (s : State) (v : Nat) {q : WideReg} {r : FReg} (h : q ≠ .f r) :
    q.get (s.setF r v) = q.get s := by
  cases q with
  | f k => exact State.getF_setF_other s r k v fun e => h (by rw [e])
  | _ => rfl

/-- A point register's triple is written whole: what each of its coordinates, and every other register, then holds. -/
theorem get_setPt (s : State) (j : PReg) (T : Triple) (q : WideReg) :
    q.get (s.setPt j T) =
      if q = .ptX j then T.x else if q = .ptY j then T.y else if q = .ptZ j then T.z else q.get s := by
  cases q with
  | ptX k | ptY k | ptZ k =>
    by_cases hk : k = j
    · subst hk; simp [get]
    · simp [get, State.getPt_setPt_other s j k T hk, hk]
  | _ => rfl

theorem get_set_other (s : State) (v : Nat) {q r : WideReg} (h : q ≠ r) : q.get (r.set s v) = q.get s := by
  cases r with
  | f k => exact get_setF_of_ne s v h
  | ptX j | ptY j | ptZ j =>
    simp only [set, get_setPt]
    split_ifs <;> simp_all [get]
  | rr | mu => rfl
  | _ => cases q <;> simp_all [get, set, State.getF, State.getPt]

end WideReg

@[simp] theorem State.busSetByte_cfg (s : State) (a : Nat) (b : Byte) : (s.busSetByte a b).cfg = s.cfg := by
  obtain ⟨_, _, _, _, _, h⟩ := s.busSetByte_frame a b
  rw [h]

/-- What a byte write leaves in every wide register. -/
theorem WideReg.get_busSetByte (s : State) (a : Nat) (b : Byte) (q : WideReg) :
    q.get (s.busSetByte a b) =
      if slotReg (a / 64) = some q ∧ a % 64 < s.cfg.flen ∧ q ≠ .rr ∧ q ≠ .mu
      then setByteAt (q.get s) s.cfg.flen (a % 64) b else q.get s := by
  cases hslot : slotReg (a / 64) with
  | none =>
    rw [if_neg (by simp)]
    cases hb : inBuffer s.cfg a with
    | true => rw [State.busSetByte_buffer b hslot hb]; exact get_congr rfl rfl rfl rfl rfl q
    | false => rw [State.busSetByte_reserved b hslot hb]
  | some r =>
    rcases Nat.lt_or_ge (a % 64) s.cfg.flen with ho | ho
    · rw [State.busSetByte_register b hslot ho]
      by_cases hq : r = q
      · subst hq
        by_cases hw : r ≠ .rr ∧ r ≠ .mu
        · rw [if_pos ⟨rfl, ho, hw⟩, get_set_same _ _ hw.1 hw.2]
        · rw [if_neg fun h => hw h.2.2]
          rcases not_and_or.mp hw with h | h
          · rw [not_not.mp h]; rfl
          · rw [not_not.mp h]; rfl
      · rw [if_neg fun h => hq (Option.some.inj h.1), get_set_other _ _ (Ne.symm hq)]
    · rw [State.busSetByte_beyond b hslot ho, if_neg fun h => absurd h.2.1 ho.not_gt]

/-! ## The register widths and R23's invariant (00_scope.md R6, 10_state.md R21 to R24) -/

theorem NumbersInv.congr {s t : State} (h : NumbersInv s) (hcfg : t.cfg = s.cfg)
    (hget : ∀ r : WideReg, r.get t = r.get s) (hpinv : t.consts.pinv0 = s.consts.pinv0)
    (hpvalid : t.status.pvalid = true → s.status.pvalid = true) : NumbersInv t := by
  obtain ⟨hlegal, ⟨hwidth, hpinvw⟩, hparams⟩ := h
  refine ⟨by rwa [hcfg], ⟨fun r => by rw [hget, hcfg]; exact hwidth r, by rw [hpinv, hcfg]; exact hpinvw⟩, fun hv => ?_⟩
  have hp : t.params.p = s.params.p := hget .p
  have ha : t.params.a = s.params.a := hget .a
  have hb : t.params.b = s.params.b := hget .b
  have hgx : t.params.gx = s.params.gx := hget .gx
  have hgy : t.params.gy = s.params.gy := hget .gy
  have hrr : t.consts.rr = s.consts.rr := hget .rr
  have hmu : t.consts.mu = s.consts.mu := hget .mu
  rw [hp, ha, hb, hgx, hgy, hrr, hmu, hpinv, hcfg]
  exact hparams (hpvalid hv)

/-- What touches none of the groups (a) to (e) of R20 keeps the invariant. -/
theorem NumbersInv.congr_groups {s t : State} (h : NumbersInv s) (hcfg : t.cfg = s.cfg) (hparams : t.params = s.params)
    (hkeys : t.keys = s.keys) (hconsts : t.consts = s.consts) (hf : t.f = s.f) (hpt : t.pt = s.pt)
    (hpvalid : t.status.pvalid = true → s.status.pvalid = true) : NumbersInv t :=
  h.congr hcfg (WideReg.get_congr hparams hkeys hconsts hf hpt) (congrArg Consts.pinv0 hconsts) hpvalid

/-- A write of registers that R23's invariant does not speak of keeps it, when the values fit. -/
theorem NumbersInv.of_widths {s t : State} (h : NumbersInv s) (hcfg : t.cfg = s.cfg)
    (hget : ∀ r : WideReg, r.get t < 2 ^ s.cfg.fieldBits) (hparams : t.params = s.params)
    (hconsts : t.consts = s.consts) (hpvalid : t.status.pvalid = s.status.pvalid) : NumbersInv t := by
  obtain ⟨hlegal, ⟨-, hpinv⟩, hp⟩ := h
  refine ⟨by rwa [hcfg], ⟨fun r => by rw [hcfg]; exact hget r, by rw [hconsts, hcfg]; exact hpinv⟩, ?_⟩
  rw [ParamsInv, hparams, hconsts, hpvalid, hcfg]
  exact hp

theorem NumbersInv.setF {s : State} (h : NumbersInv s) (r : FReg) {v : Nat} (hv : v < 2 ^ s.cfg.fieldBits) :
    NumbersInv (s.setF r v) := by
  refine h.of_widths rfl (fun q => ?_) rfl rfl rfl
  by_cases hq : q = .f r
  · subst hq; simpa [WideReg.get] using hv
  · rw [WideReg.get_setF_of_ne s v hq]; exact h.get_lt q

theorem NumbersInv.setPt {s : State} (h : NumbersInv s) (j : PReg) {T : Triple} (hT : T.Below (2 ^ s.cfg.fieldBits)) :
    NumbersInv (s.setPt j T) := by
  refine h.of_widths rfl (fun q => ?_) rfl rfl rfl
  rw [WideReg.get_setPt]
  split_ifs
  · exact hT.x
  · exact hT.y
  · exact hT.z
  · exact h.get_lt q

theorem get_replicate_zero (r : FReg) : (Vector.replicate 16 (0 : Nat)).get r = 0 := by
  show (Vector.replicate 16 0)[r.val] = 0
  simp

theorem get_replicate_inf (j : PReg) : (Vector.replicate 4 Triple.inf).get j = Triple.inf := by
  show (Vector.replicate 4 Triple.inf)[j.val] = Triple.inf
  simp

/-- ZEROIZE clears a wide register or leaves it. -/
theorem WideReg.get_zeroized (s : State) (q : WideReg) : q.get s.zeroized = 0 ∨ q.get s.zeroized = q.get s := by
  cases q with
  | d => exact .inl rfl
  | f r => exact .inl (get_replicate_zero r)
  | ptX j => exact .inl (congrArg Triple.x (get_replicate_inf j))
  | ptY j => exact .inl (congrArg Triple.y (get_replicate_inf j))
  | ptZ j => exact .inl (congrArg Triple.z (get_replicate_inf j))
  | _ => exact .inr rfl

theorem WideReg.get_hostReset (s : State) (q : WideReg) : q.get s.hostReset = 0 := by
  cases q with
  | f r => exact get_replicate_zero r
  | ptX j => exact congrArg Triple.x (get_replicate_inf j)
  | ptY j => exact congrArg Triple.y (get_replicate_inf j)
  | ptZ j => exact congrArg Triple.z (get_replicate_inf j)
  | _ => rfl

theorem NumbersInv.zeroized {s : State} (h : NumbersInv s) : NumbersInv s.zeroized := by
  refine h.of_widths rfl (fun q => ?_) rfl rfl rfl
  rcases WideReg.get_zeroized s q with hq | hq
  · rw [hq]; exact Nat.two_pow_pos _
  · rw [hq]; exact h.get_lt q

theorem setupRejects_eq_false {W : Nat} {r : Params} (h : setupRejects W r = false) :
    r.p % 2 = 1 ∧ 2 ^ (W - 1) ≤ r.p ∧ r.a < r.p ∧ r.b < r.p ∧ r.gx < r.p ∧ r.gy < r.p := by
  simp only [setupRejects, Bool.or_eq_false_iff, beq_eq_false_iff_ne, decide_eq_false_iff_not, not_lt, ge_iff_le,
    not_le] at h
  obtain ⟨⟨⟨⟨⟨hodd, hlo⟩, ha⟩, hb⟩, hgx⟩, hgy⟩ := h
  exact ⟨by omega, hlo, ha, hb, hgx, hgy⟩

theorem WideReg.get_storeConsts (s : State) {q : WideReg} (hrr : q ≠ .rr) (hmu : q ≠ .mu) :
    q.get s.storeConsts = q.get s := by
  cases q with
  | rr => exact absurd rfl hrr
  | mu => exact absurd rfl hmu
  | _ => rfl

/-- SETUP's constants are R23's (R121). -/
theorem NumbersInv.storeConsts {s : State} (h : NumbersInv s) (hok : setupRejects s.cfg.fieldBits s.params = false) :
    NumbersInv s.storeConsts := by
  obtain ⟨hodd, hlo, ha, hb, hgx, hgy⟩ := setupRejects_eq_false hok
  have hW := h.width_ge
  have hfull := two_pow_lt_of_odd hW hodd hlo
  have hlt := h.modulus_lt
  obtain ⟨hmu, hmulo⟩ := setupMU_spec (by omega) hfull hlt
  obtain ⟨hplt, hpinv⟩ := setupPINV0_spec hodd s.cfg.limbBits
  obtain ⟨hlegal, ⟨hwidth, -⟩, -⟩ := h
  have ⟨_, ⟨_, hw, _⟩, _⟩ := hlegal
  have hword : (BitVec.ofNat 32 (setupPINV0 s.cfg.limbBits s.params.p)).toNat = setupPINV0 s.cfg.limbBits s.params.p :=
    Nat.mod_eq_of_lt (hplt.trans_le (Nat.pow_le_pow_right (by norm_num) hw))
  refine ⟨hlegal, ⟨fun r => ?_, ?_⟩, fun _ => ⟨⟨hodd, hlo, hlt⟩, ⟨ha, hb, hgx, hgy⟩, rfl, hmu, ?_⟩⟩
  · by_cases hrr : r = .rr
    · subst hrr; exact (Nat.mod_lt _ (by omega)).trans hlt
    by_cases hmu' : r = .mu
    · subst hmu'; exact hmulo
    · rw [WideReg.get_storeConsts s hrr hmu']; exact hwidth r
  · show (BitVec.ofNat 32 (setupPINV0 s.cfg.limbBits s.params.p)).toNat < 2 ^ s.cfg.limbBits
    rw [hword]
    exact hplt
  · show (s.params.p * (BitVec.ofNat 32 (setupPINV0 s.cfg.limbBits s.params.p)).toNat + 1) % 2 ^ s.cfg.limbBits = 0
    rw [hword]
    exact hpinv

theorem NumbersInv.setCursor {s : State} (h : NumbersInv s) (c : Cursor) : NumbersInv (s.setCursor c) :=
  h.congr_groups rfl rfl rfl rfl rfl rfl id

theorem CommandWrites.numbersInv {s u : State} {i : Instr} (hu : CommandWrites s i u) (h : NumbersInv s) :
    NumbersInv u := by
  have hpow : 256 ^ s.cfg.flen = 2 ^ s.cfg.fieldBits := Config.pow_flen h.legal
  cases hu with
  | field _ r v hv => exact h.setF r (hv h)
  | point _ j T hT => exact h.setPt j (hT h)
  | consts hok => exact h.storeConsts hok
  | zeroized => exact h.zeroized
  | fields rd ra r hx hy _ _ =>
    rw [hpow] at hx hy
    have hset : NumbersInv ((s.setF rd r.x1).setF ra r.y1) :=
      (h.setF rd hx).setF ra hy
    exact hset.congr_groups rfl rfl rfl rfl rfl rfl id
  | drawn rd c k _ hk =>
    rw [hpow] at hk
    exact (h.setCursor c).setF rd hk
  | encrypted c _ _ _ _ => exact (h.setCursor c).congr_groups rfl rfl rfl rfl rfl rfl id
  | _ => exact h.congr_groups rfl rfl rfl rfl rfl rfl id

theorem FaultWrites.numbersInv {s u : State} {i : Instr} (hu : FaultWrites s i u) (h : NumbersInv s) :
    NumbersInv u := by
  cases hu with
  | setup => exact h.congr_groups rfl rfl rfl rfl rfl rfl (by simp [State.clearPvalid])
  | encrypt c _ _ => exact (h.setCursor c).congr_groups rfl rfl rfl rfl rfl rfl id
  | _ => exact h.congr_groups rfl rfl rfl rfl rfl rfl id

theorem numbersInv_of_commandEnds {s t : State} {i : Instr} (h : NumbersInv s) (ht : CommandEnds s i t) :
    NumbersInv t := by
  cases ht with
  | completes hu => exact (hu.numbersInv h).congr_groups rfl rfl rfl rfl rfl rfl id
  | faults hu F => exact (hu.numbersInv h).congr_groups rfl rfl rfl rfl rfl rfl id

/-! ### What the host writes -/

theorem WideReg.get_busSetByte_lt {s : State} (hs : s.cfg.Legal) (h : ∀ r : WideReg, r.get s < 2 ^ s.cfg.fieldBits)
    (a : Nat) (b : Byte) (q : WideReg) : q.get (s.busSetByte a b) < 2 ^ s.cfg.fieldBits := by
  rw [get_busSetByte]
  split
  · next ho =>
    rw [← Config.pow_flen hs] at h ⊢
    exact setByteAt_lt ho.2.1 (h q) b
  · exact h q

@[simp] theorem State.storeWord_cfg (s : State) (a : Nat) (v : Word) : (s.storeWord a v).cfg = s.cfg := by
  obtain ⟨_, _, _, _, _, h⟩ := s.storeWord_frame a v
  rw [h]

theorem WideReg.get_storeWord_lt {s : State} (h : NumbersInv s) (a : Nat) (v : Word) (q : WideReg) :
    q.get (s.storeWord a v) < 2 ^ s.cfg.fieldBits := by
  refine (State.storeWord_keeps (P := fun u => u.cfg = s.cfg ∧ ∀ q : WideReg, q.get u < 2 ^ s.cfg.fieldBits) v
    (fun u j b _ ⟨hcfg, hu⟩ => ?_) ⟨rfl, h.get_lt⟩).2 q
  rw [← hcfg] at hu ⊢
  exact ⟨State.busSetByte_cfg .., WideReg.get_busSetByte_lt (by rw [hcfg]; exact h.legal) hu _ b⟩

/-- The four bytes of an aligned word lie in one slot. -/
theorem slot_of_lane {a j : Nat} (ha : a % 4 = 0) (hj : j < 4) : (a + j) / 64 = a / 64 ∧ (a + j) % 64 = a % 64 + j := by
  omega

/-- A word write touches only the wide register whose slot it is in, and none where it lies wholly beyond FLEN. -/
theorem WideReg.get_storeWord_other {s : State} {a : Nat} (ha : a % 4 = 0) (v : Word) {q : WideReg}
    (h : slotReg (a / 64) = some q → s.cfg.flen ≤ a % 64) : q.get (s.storeWord a v) = q.get s := by
  refine (State.storeWord_keeps (P := fun u => u.cfg = s.cfg ∧ q.get u = q.get s) v
    (fun u j b hj ⟨hcfg, hu⟩ => ⟨by rw [State.busSetByte_cfg, hcfg], ?_⟩) ⟨rfl, rfl⟩).2
  obtain ⟨hslot, hoff⟩ := slot_of_lane ha hj
  rw [get_busSetByte, hslot, hoff, hcfg, hu]
  refine if_neg fun ⟨hq, hlt, _⟩ => ?_
  have := h hq
  omega

/-- A word write that leaves PVALID leaves P, A, B, GX, GY (R23). -/
theorem WideReg.get_storeWord_of_feedsConsts {s : State} {a : Nat} (ha : a % 4 = 0) (v : Word)
    (hc : s.clearsPvalid a = false) {q : WideReg} (hq : q.feedsConsts = true) : q.get (s.storeWord a v) = q.get s := by
  refine get_storeWord_other ha v fun hslot => ?_
  simpa [State.clearsPvalid, hslot, hq] using hc

theorem NumbersInv.storeWord {s : State} (h : NumbersInv s) {a : Nat} (ha : a % 4 = 0) (v : Word)
    (hc : s.clearsPvalid a = false) : NumbersInv (s.storeWord a v) := by
  have hget := WideReg.get_storeWord_lt h a v
  have hp : (s.storeWord a v).params.p = s.params.p := WideReg.get_storeWord_of_feedsConsts ha v hc (q := .p) rfl
  have ha' : (s.storeWord a v).params.a = s.params.a := WideReg.get_storeWord_of_feedsConsts ha v hc (q := .a) rfl
  have hb : (s.storeWord a v).params.b = s.params.b := WideReg.get_storeWord_of_feedsConsts ha v hc (q := .b) rfl
  have hgx : (s.storeWord a v).params.gx = s.params.gx := WideReg.get_storeWord_of_feedsConsts ha v hc (q := .gx) rfl
  have hgy : (s.storeWord a v).params.gy = s.params.gy := WideReg.get_storeWord_of_feedsConsts ha v hc (q := .gy) rfl
  obtain ⟨_, _, _, _, _, he⟩ := s.storeWord_frame a v
  have hconsts : (s.storeWord a v).consts = s.consts := by rw [he]
  have hstatus : (s.storeWord a v).status = s.status := by rw [he]
  obtain ⟨hlegal, ⟨-, hpinv⟩, hparams⟩ := h
  refine ⟨by rwa [State.storeWord_cfg], ⟨by rwa [State.storeWord_cfg], by rwa [hconsts, State.storeWord_cfg]⟩, ?_⟩
  rw [ParamsInv, hp, ha', hb, hgx, hgy, hconsts, hstatus, State.storeWord_cfg]
  exact hparams

/-- With PVALID cleared, only the widths are left to keep. -/
theorem NumbersInv.storeWord_clearPvalid {s : State} (h : NumbersInv s) (a : Nat) (v : Word) :
    NumbersInv (s.storeWord a v).clearPvalid := by
  have hget := WideReg.get_storeWord_lt h a v
  obtain ⟨_, _, _, _, _, he⟩ := s.storeWord_frame a v
  obtain ⟨hlegal, ⟨-, hpinv⟩, -⟩ := h
  rw [he] at hget ⊢
  exact ⟨hlegal, ⟨hget, hpinv⟩, fun hv => absurd hv (by simp [State.clearPvalid])⟩

theorem NumbersInv.hostReset {s : State} (h : s.cfg.Legal) : NumbersInv s.hostReset :=
  ⟨h, ⟨fun q => by rw [WideReg.get_hostReset]; exact Nat.two_pow_pos _, Nat.two_pow_pos s.cfg.limbBits⟩,
    fun hv => absurd hv (by simp [State.resetOf])⟩

theorem numbersInv_of_hostEnds {s t : State} (h : NumbersInv s) (ht : HostEnds s t) : NumbersInv t := by
  cases ht with
  | resets => exact .hostReset h.legal
  | control r v _ hcmd hstatus =>
    obtain ⟨_, _, _, he, -⟩ := CtlReg.write_frame s v hcmd hstatus
    rw [he]
    exact h.congr rfl (fun q => by cases q <;> rfl) rfl id
  | stores a v _ ha _ hc => exact h.storeWord ha v hc
  | storesParam a v _ _ _ _ => exact h.storeWord_clearPvalid a v
  | _ => exact h.congr_groups rfl rfl rfl rfl rfl rfl id

/-- Settles O33: what the commands write fits its register, SETUP makes R23's constants, and a host write that could
break R23's invariant clears PVALID. -/
theorem numbersInvariantIsKept : Obligations.NumbersInvariantIsKept := by
  intro s t
  exact step_keeps (fun s rest h => h.congr_groups rfl rfl rfl rfl rfl rfl id)
    (fun s i t _ => numbersInv_of_commandEnds) (fun s ph c _ h => h.congr_groups rfl rfl rfl rfl rfl rfl id)
    (fun s t => numbersInv_of_hostEnds)

/-! ## What does not depend on D (10_state.md R22, 60_exceptions.md R279) -/

namespace State

/-- The state with another value of D. -/
def withD (s : State) (d : Nat) : State := { s with keys := { s.keys with d := d } }

@[simp] theorem withD_cfg (s : State) (d : Nat) : (s.withD d).cfg = s.cfg := rfl
@[simp] theorem withD_params (s : State) (d : Nat) : (s.withD d).params = s.params := rfl
@[simp] theorem withD_status (s : State) (d : Nat) : (s.withD d).status = s.status := rfl
@[simp] theorem withD_ctrl (s : State) (d : Nat) : (s.withD d).ctrl = s.ctrl := rfl
@[simp] theorem withD_regs (s : State) (d : Nat) : (s.withD d).regs = s.regs := rfl
@[simp] theorem withD_phase (s : State) (d : Nat) : (s.withD d).phase = s.phase := rfl
@[simp] theorem withD_mem (s : State) (d : Nat) : (s.withD d).mem = s.mem := rfl
@[simp] theorem withD_scratch (s : State) (d : Nat) : (s.withD d).scratch = s.scratch := rfl
@[simp] theorem withD_fetch (s : State) (d : Nat) : (s.withD d).fetch = s.fetch := rfl
@[simp] theorem withD_dlen (s : State) (d : Nat) : (s.withD d).dlen = s.dlen := rfl
@[simp] theorem withD_recordBytes (s : State) (d : Nat) : (s.withD d).recordBytes = s.recordBytes := rfl

theorem putRecord_withD (s : State) (r : List Byte) (d : Nat) : (s.withD d).putRecord r = (s.putRecord r).withD d := rfl
theorem putFields_withD (s : State) (rd ra : FReg) (r : Record) (d : Nat) :
    (s.withD d).putFields rd ra r = (s.putFields rd ra r).withD d := rfl

/-- A branch on a condition that does not depend on D. -/
theorem ite_withD {c c' : Prop} [Decidable c] [Decidable c'] {a b a' b' : State} {d : Nat} (hc : c' ↔ c)
    (ha : a' = a.withD d) (hb : b' = b.withD d) : (if c' then a' else b') = (if c then a else b).withD d := by
  by_cases h : c
  · rw [if_pos h, if_pos (hc.mpr h), ha]
  · rw [if_neg h, if_neg (fun h' => h (hc.mp h')), hb]

/-- A command whose checks and writes do not depend on D. -/
theorem guarded_withD {s k k' : State} {l l' : List (Bool × CmdFault)} {d : Nat} (hl : l' = l) (hk : k' = k.withD d) :
    (s.withD d).guarded l' k' = (s.guarded l k).withD d := by
  subst hl hk
  simp only [guarded]
  split <;> rfl

end State

/-! ### The commands -/

theorem encryptLoop_withD (P : Ports) (s : State) (d L fuel att : Nat) (c : Cursor) :
    encryptLoop P (s.withD d) L fuel att c = encryptLoop P s L fuel att c := by
  induction fuel generalizing att c with
  | zero => rfl
  | succ fuel ih =>
    simp only [encryptLoop, ih]
    rfl

theorem encryptWith_withD (P : Ports) (s : State) (d : Nat) :
    encryptWith P (s.withD d) = (encryptWith P s).withD d := by
  have hchecks : encryptChecks (s.withD d) = encryptChecks s := rfl
  have hloop : encryptLoop P (s.withD d) (s.withD d).regs.msglen.toNat (s.withD d).regs.maxatt.toNat 0
    (s.withD d).cursor = encryptLoop P s s.regs.msglen.toNat s.regs.maxatt.toNat 0 s.cursor :=
    encryptLoop_withD P s d _ _ _ _
  simp only [encryptWith, hchecks, hloop]
  split
  · rfl
  · split
    · rfl
    · rfl

theorem drawWith_withD (P : Ports) (rd : FReg) (s : State) (d : Nat) :
    drawWith P rd (s.withD d) = (drawWith P rd s).withD d := by
  have hdraw : (s.withD d).drawFrom P (s.withD d).cursor = s.drawFrom P s.cursor := rfl
  simp only [drawWith, hdraw]
  split <;> rfl

/-- Every command but DECRYPT does the same whatever D is, and leaves D or, ZEROIZE, clears it. -/
theorem exec_withD {i : Instr} (hi : i ≠ .decrypt) (s : State) (d : Nat) :
    ∃ u d', exec i s = .next u ∧ exec i (s.withD d) = .next (u.withD d') := by
  cases i with
  | decrypt => exact absurd rfl hi
  | zeroize => exact ⟨_, 0, rfl, rfl⟩
  | nop | cmp | mov | ldi | pisinf | psetinf | pldg | pldq | pmov | pset | pget => exact ⟨_, d, rfl, rfl⟩
  | encrypt => exact ⟨_, d, rfl, congrArg _ (encryptWith_withD .free s d)⟩
  | draw rd => exact ⟨_, d, rfl, congrArg _ (drawWith_withD .free rd s d)⟩
  | setup => exact ⟨_, d, rfl, congrArg Host.Outcome.next (State.ite_withD Iff.rfl rfl rfl)⟩
  | ptsize =>
    refine ⟨_, d, rfl, congrArg Host.Outcome.next (State.guarded_withD rfl ?_)⟩
    simp only [State.withD_recordBytes, State.withD_dlen, State.withD_ctrl]
    split <;> rfl
  | rdec rd ra =>
    refine ⟨_, d, rfl, congrArg Host.Outcome.next (State.guarded_withD rfl ?_)⟩
    simp only [State.withD_recordBytes, State.withD_dlen, State.withD_ctrl, State.withD_cfg]
    split
    · rfl
    · next r _ =>
      exact State.ite_withD Iff.rfl rfl (congrArg State.complete (State.putFields_withD s rd ra r d))
  | renc ra rb =>
    exact ⟨_, d, rfl, congrArg Host.Outcome.next
      (State.guarded_withD rfl (congrArg State.complete (State.putRecord_withD s _ d)))⟩
  | _ => exact ⟨_, d, rfl, congrArg Host.Outcome.next (State.guarded_withD rfl rfl)⟩

/-! ### The sequencer -/

section
variable (s : State) (d : Nat)

@[simp] theorem encryptChecks_withD : encryptChecks (s.withD d) = encryptChecks s := rfl
@[simp] theorem drawFrom_withD (P : Ports) (c : Cursor) : (s.withD d).drawFrom P c = s.drawFrom P c := rfl

theorem kdfDone_withD (last : Phase) : kdfDone (s.withD d) last = (kdfDone s last).withD d := by
  simp only [kdfDone]
  exact State.ite_withD Iff.rfl rfl (State.ite_withD Iff.rfl (State.ite_withD Iff.rfl rfl rfl) rfl)

theorem kdfAdvance_withD (P : Ports) : kdfAdvance P (s.withD d) = (kdfAdvance P s).withD d := by
  simp only [kdfAdvance, State.withD_phase]
  cases s.phase with
  | kInit => exact State.ite_withD Iff.rfl rfl (State.ite_withD Iff.rfl (kdfDone_withD { s with scratch := _ } d _) rfl)
  | kOut => exact State.ite_withD Iff.rfl rfl (State.ite_withD Iff.rfl rfl (kdfDone_withD { s with scratch := _ } d _))
  | _ => rfl

theorem encryptAdvance_withD (P : Ports) : encryptAdvance P (s.withD d) = (encryptAdvance P s).withD d := by
  simp only [encryptAdvance, State.withD_phase, State.withD_scratch, encryptChecks_withD, drawFrom_withD,
    kdfAdvance_withD s d P]
  cases s.phase with
  | eCheck =>
    dsimp only
    split
    · rfl
    · rfl
  | eDraw =>
    refine State.ite_withD Iff.rfl rfl ?_
    split
    · rfl
    · exact State.ite_withD Iff.rfl rfl rfl
  | eC1 => exact State.ite_withD Iff.rfl rfl rfl
  | eS => exact State.ite_withD Iff.rfl rfl rfl
  | _ => rfl

/-- Every edge of the sequencer's graph but DECRYPT's is the same whatever D is. -/
theorem seqAdvance_withD (P : Ports) (h : s.status.busy = true → decode s.fetch ≠ .ok .decrypt) :
    seqAdvance P (s.withD d) = (seqAdvance P s).withD d := by
  simp only [seqAdvance, State.withD_fetch]
  by_cases hb : s.status.busy = true
  · refine State.ite_withD Iff.rfl rfl ?_
    split
    · exact encryptAdvance_withD s d P
    · next hd => exact absurd hd (h hb)
    · exact kdfAdvance_withD s d P
    · rfl
  · rw [if_pos (by simpa using hb), if_pos (by simpa using hb)]

end

/-! ### The host's accesses -/

theorem WideReg.get_withD (s : State) (d : Nat) {r : WideReg} (h : r ≠ .d) : r.get (s.withD d) = r.get s := by
  cases r with
  | d => exact absurd rfl h
  | _ => rfl

theorem WideReg.set_withD (s : State) (d v : Nat) {r : WideReg} (h : r ≠ .d) :
    r.set (s.withD d) v = (r.set s v).withD d := by
  cases r with
  | d => exact absurd rfl h
  | _ => rfl

namespace State

/-- A read of a byte of D answers 0 (R22). -/
theorem busByte_withD (s : State) (d a : Nat) : (s.withD d).busByte a = s.busByte a := by
  simp only [busByte, withD_cfg, withD_mem]
  cases slotReg (a / 64) with
  | none => rfl
  | some r =>
    by_cases h : r = .d
    · subst h; rfl
    · exact congrArg (fun v => if r.readable && a % 64 < s.cfg.flen then byteAt v s.cfg.flen (a % 64) else 0)
        (WideReg.get_withD s d h)

theorem readIdle_withD (s : State) (d a : Nat) : (s.withD d).readIdle a = s.readIdle a := by
  simp only [readIdle, busByte_withD]
  cases CtlReg.at a with
  | none => rfl
  | some r => cases r <;> rfl

theorem readBusy_withD (s : State) (d a : Nat) : (s.withD d).readBusy a = s.readBusy a := by
  simp only [readBusy]
  cases CtlReg.at a with
  | none => rfl
  | some r => cases r <;> rfl

theorem busSetByte_withD (s : State) (d a : Nat) (b : Byte) :
    ∃ d', (s.withD d).busSetByte a b = (s.busSetByte a b).withD d' := by
  cases hslot : slotReg (a / 64) with
  | none =>
    cases hb : inBuffer s.cfg a with
    | true => exact ⟨d, by rw [busSetByte_buffer b hslot hb, busSetByte_buffer (s := s.withD d) b hslot hb]; rfl⟩
    | false => exact ⟨d, by rw [busSetByte_reserved b hslot hb, busSetByte_reserved (s := s.withD d) b hslot hb]⟩
  | some r =>
    rcases Nat.lt_or_ge (a % 64) s.cfg.flen with ho | ho
    · rw [busSetByte_register b hslot ho, busSetByte_register (s := s.withD d) b hslot ho]
      by_cases h : r = .d
      · subst h; exact ⟨_, rfl⟩
      · exact ⟨d, by rw [WideReg.get_withD s d h, WideReg.set_withD s d _ h, withD_cfg]⟩
    · exact ⟨d, by rw [busSetByte_beyond b hslot ho, busSetByte_beyond (s := s.withD d) b hslot ho]⟩

theorem storeWord_withD (s : State) (d a : Nat) (v : Word) :
    ∃ d', (s.withD d).storeWord a v = (s.storeWord a v).withD d' := by
  obtain ⟨d0, h0⟩ := s.busSetByte_withD d a (laneOf v 0)
  obtain ⟨d1, h1⟩ := (s.busSetByte a (laneOf v 0)).busSetByte_withD d0 (a + 1) (laneOf v 1)
  obtain ⟨d2, h2⟩ :=
    ((s.busSetByte a (laneOf v 0)).busSetByte (a + 1) (laneOf v 1)).busSetByte_withD d1 (a + 2) (laneOf v 2)
  obtain ⟨d3, h3⟩ :=
    (((s.busSetByte a (laneOf v 0)).busSetByte (a + 1) (laneOf v 1)).busSetByte (a + 2)
      (laneOf v 2)).busSetByte_withD d2 (a + 3) (laneOf v 3)
  exact ⟨d3, by rw [storeWord, h0, h1, h2, h3, storeWord]⟩

end State

theorem CtlReg.write_withD (s : State) (d : Nat) (v : Word) (r : CtlReg) :
    r.write (s.withD d) v = (r.write s v).withD d := by
  cases r with
  | cmd | rnglen | rngpos => exact State.ite_withD Iff.rfl rfl rfl
  | _ => rfl

namespace State

theorem writeIdle_withD (s : State) (d a : Nat) (v : Word) :
    ∃ d', (s.withD d).writeIdle a v = (s.writeIdle a v).withD d' := by
  rcases Nat.lt_or_ge a 0x100 with h | h
  · cases hr : CtlReg.at a with
    | none => exact ⟨d, by rw [writeIdle_reserved v h hr, writeIdle_reserved v h hr]⟩
    | some r => exact ⟨d, by rw [writeIdle_control v h hr, writeIdle_control v h hr, CtlReg.write_withD]⟩
  · obtain ⟨d', hd'⟩ := s.storeWord_withD d a v
    refine ⟨d', ?_⟩
    rw [writeIdle_of_le v h, writeIdle_of_le v h, hd']
    exact ite_withD Iff.rfl rfl rfl

/-- No access of the host shows D or depends on it: a write of D itself leaves another D. -/
theorem hostAccess_withD (s : State) (d : Nat) (a : Access) :
    ∃ d', (s.withD d).hostAccess a = (s.hostAccess a).withD d' := by
  cases a with
  | reset => exact ⟨0, rfl⟩
  | read addr bytes =>
    refine ⟨d, ite_withD Iff.rfl rfl ?_⟩
    rw [readIdle_withD, readBusy_withD]
    rfl
  | write addr bytes v =>
    obtain ⟨d', hd'⟩ := s.writeIdle_withD d addr.toNat v
    simp only [hostAccess, hd', withD_status]
    by_cases hal : (!aligned addr bytes) = true
    · exact ⟨d, by rw [if_pos hal, if_pos hal]; rfl⟩
    by_cases hb : s.status.busy = true
    · refine ⟨d, ?_⟩
      rw [if_neg hal, if_neg hal, if_pos hb, if_pos hb]
      exact ite_withD Iff.rfl rfl rfl
    · exact ⟨d', by rw [if_neg hal, if_neg hal, if_neg hb, if_neg hb]⟩

end State

theorem coreMove_withD (s : State) (d : Nat) (h : s.status.busy = true → decode s.fetch ≠ .ok .decrypt) :
    ∃ u d', coreMove s = .next u ∧ coreMove (s.withD d) = .next (u.withD d') := by
  cases hb : s.status.busy with
  | false => exact ⟨s, d, by simp [coreMove, hb], by simp [coreMove, hb]⟩
  | true =>
    cases hd : decode s.fetch with
    | error e =>
      exact ⟨s.raise .illegalCommand, d, by simp [coreMove, runCommand, hb, hd],
        by simp only [coreMove, runCommand, State.withD_status, State.withD_fetch, hb, hd, if_true]; rfl⟩
    | ok i =>
      rw [coreMove_of_decode hb hd, coreMove_of_decode (s := s.withD d) hb hd]
      exact exec_withD (fun hi => h hb (by rw [hd, hi])) s d

/-- DECRYPT apart, a step does the same whatever D is. -/
theorem step_withD (s : State) (d : Nat) (h : s.status.busy = true → decode s.fetch ≠ .ok .decrypt) :
    ∃ u d', step s = .next u ∧ step (s.withD d) = .next (u.withD d') := by
  cases ht : s.turns with
  | nil =>
    rw [step_of_no_turn ht, step_of_no_turn (s := s.withD d) ht]
    exact coreMove_withD s d h
  | cons turn rest =>
    cases turn with
    | core =>
      rw [step_of_core_turn ht, step_of_core_turn (s := s.withD d) ht]
      exact coreMove_withD { s with turns := rest } d h
    | phase =>
      rw [step_of_phase_turn ht, step_of_phase_turn (s := s.withD d) ht]
      exact ⟨_, d, rfl, congrArg _ (seqAdvance_withD { s with turns := rest } d .free h)⟩
    | host a =>
      rw [step_of_host_turn ht, step_of_host_turn (s := s.withD d) ht]
      obtain ⟨d', hd'⟩ := ({ s with turns := rest } : State).hostAccess_withD d a
      exact ⟨_, d', rfl, congrArg _ hd'⟩

/-- Settles O51: DECRYPT apart, every command, phase and access commutes with a change of D. -/
theorem privateScalarLeaksOnlyThroughDecrypt : Obligations.PrivateScalarLeaksOnlyThroughDecrypt := by
  rintro s _ t ⟨d, rfl⟩ hrun hstep
  obtain ⟨u, d', hu, hu'⟩ := step_withD s d hrun
  rw [hu, Host.Outcome.next.injEq] at hstep
  exact ⟨_, hu', d', by rw [← hstep]; rfl⟩

/-! ## Which part of the bus an aligned access reaches (20_memory.md R76 to R79) -/

namespace State

section
variable {s : State} {addr : Word}

theorem aligned_word (h : addr.toNat % 4 = 0) : aligned addr 4 = true := by
  simp [aligned, h]

theorem hostAccess_write_idle (v : Word) (ha : addr.toNat % 4 = 0) (hb : s.status.busy = false) :
    s.hostAccess (.write addr 4 v) = s.writeIdle addr.toNat v := by
  simp [hostAccess, aligned_word ha, hb]

theorem hostAccess_write_busy (v : Word) (ha : addr.toNat % 4 = 0) (hb : s.status.busy = true)
    (hstatus : addr.toNat ≠ 0x00C) : s.hostAccess (.write addr 4 v) = s.setDrop := by
  simp [hostAccess, aligned_word ha, hb, hstatus]

/-- STATUS is written while a command runs too (R79). -/
theorem hostAccess_write_status (s : State) (v : Word) : s.hostAccess (.write 0x00C 4 v) = s.acknowledge v := by
  cases hb : s.status.busy with
  | true => simp [hostAccess, aligned, hb]
  | false =>
    rw [hostAccess_write_idle v (by decide) hb, writeIdle_control (r := .status) v (by decide) rfl]
    rfl

theorem hostAccess_read_idle (ha : addr.toNat % 4 = 0) (hb : s.status.busy = false) :
    s.hostAccess (.read addr 4) = { s with reply := s.readIdle addr.toNat } := by
  simp [hostAccess, aligned_word ha, hb]

theorem hostAccess_read_busy (ha : addr.toNat % 4 = 0) (hb : s.status.busy = true) :
    s.hostAccess (.read addr 4) = { s with reply := s.readBusy addr.toNat } := by
  simp [hostAccess, aligned_word ha, hb]

end

theorem hostAccess_read_cmd (s : State) : s.hostAccess (.read 0x008 4) = { s with reply := 0 } := by
  cases hb : s.status.busy with
  | true =>
    rw [hostAccess_read_busy (by decide) hb]
    rfl
  | false =>
    rw [hostAccess_read_idle (by decide) hb]
    rfl

/-- A write of CMD is accepted when the block is idle and shows no fault (R31). -/
theorem hostAccess_write_cmd {s : State} (w : Word) (hb : s.status.busy = false) (he : s.status.err = false) :
    s.hostAccess (.write 0x008 4 w) = s.acceptWord w := by
  rw [hostAccess_write_idle w (by decide) hb, writeIdle_control (r := .cmd) w (by decide) rfl]
  simp [CtlReg.write, he]

/-- A write of CMD while a command runs, or while a fault stands, is dropped (R31). -/
theorem hostAccess_write_cmd_dropped {s : State} (w : Word) (h : s.status.busy = true ∨ s.status.err = true) :
    s.hostAccess (.write 0x008 4 w) = s.setDrop := by
  cases hb : s.status.busy with
  | true => exact hostAccess_write_busy w (by decide) hb (by decide)
  | false =>
    have he : s.status.err = true := by simpa [hb] using h
    rw [hostAccess_write_idle w (by decide) hb, writeIdle_control (r := .cmd) w (by decide) rfl]
    simp [CtlReg.write, he]

end State

/-- Settles O52: a CMD write is accepted or dropped as ERR and BUSY say, and a read answers 0. -/
theorem cmdWritesAreAcceptedOrDropped : Obligations.CmdWritesAreAcceptedOrDropped := by
  intro s w rest
  refine ⟨fun ht hb he => ⟨({ s with turns := rest } : State).acceptWord w, ?_, rfl, rfl, rfl, rfl⟩,
    fun ht h => ⟨({ s with turns := rest } : State).setDrop, ?_, rfl⟩, fun ht => ⟨_, ?_, rfl⟩⟩
  · rw [step_of_host_turn ht, State.hostAccess_write_cmd (s := { s with turns := rest }) w hb he]
  · rw [step_of_host_turn ht, State.hostAccess_write_cmd_dropped (s := { s with turns := rest }) w h]
  · rw [step_of_host_turn ht, State.hostAccess_read_cmd]

/-- Settles O53: the write is the acknowledgement, busy or idle, and irq is a function of the state it leaves. -/
theorem statusWriteAcknowledges : Obligations.StatusWriteAcknowledges := by
  intro s v rest ht
  have hclear (old bit : Bool) : (old && !bit) = if bit then false else old := by cases bit <;> simp
  refine ⟨({ s with turns := rest } : State).acknowledge v, ?_, ?_, rfl, rfl, by simp [State.irq]⟩
  · rw [step_of_host_turn ht, State.hostAccess_write_status]
  · simp only [State.acknowledge_status, hclear]

/-! ## The slots of the wide registers (10_state.md R26, 20_memory.md R71) -/

theorem slotReg_of_ge {n : Nat} (h : 48 ≤ n) : slotReg n = none := by
  unfold slotReg
  rw [if_neg (by omega), dif_neg (by omega), dif_neg (by omega)]

theorem slotReg_slotBase (r : WideReg) : slotReg (Spec.slotBase r / 64) = some r := by
  cases r with
  | f r => revert r; decide
  | ptX j | ptY j | ptZ j => revert j; decide
  | _ => rfl

theorem slotBase_of_slotReg {n : Nat} {r : WideReg} (h : slotReg n = some r) : Spec.slotBase r = 64 * n := by
  have hmap : ∀ n < 48, (slotReg n).all (fun r => Spec.slotBase r == 64 * n) = true := by decide
  rcases Nat.lt_or_ge n 48 with hn | hn
  · simpa [h] using hmap n hn
  · rw [slotReg_of_ge hn] at h
    cases h

/-- A slot and the register in it determine each other. -/
theorem slotReg_eq_some {n : Nat} {r : WideReg} : slotReg n = some r ↔ Spec.slotBase r = 64 * n := by
  refine ⟨slotBase_of_slotReg, fun h => ?_⟩
  rw [← slotReg_slotBase r, h, Nat.mul_div_cancel_left n (by norm_num)]

/-- The five registers whose writes clear PVALID fill the slots from 0x100 to 0x240 (R21, R23). -/
theorem feedsConsts_iff (r : WideReg) : r.feedsConsts = true ↔ Spec.slotBase r < 0x240 := by
  cases r <;> simp [WideReg.feedsConsts, Spec.slotBase] <;> omega

theorem slotReg_param {n : Nat} (hlo : 4 ≤ n) (hhi : n < 9) : ∃ r, slotReg n = some r ∧ r.feedsConsts = true := by
  interval_cases n <;> exact ⟨_, rfl, rfl⟩

/-- A word from 0x100 on clears PVALID exactly when it is one of those slots' words that hold register bytes (R23,
log 8). -/
theorem State.clearsPvalid_iff (s : State) {a : Nat} (h : 0x100 ≤ a) :
    s.clearsPvalid a = true ↔ a < 0x240 ∧ a % 64 < s.cfg.flen := by
  simp only [State.clearsPvalid]
  cases hslot : slotReg (a / 64) with
  | none =>
    have : ¬a < 0x240 := fun ha => by
      obtain ⟨r, hr, -⟩ := slotReg_param (n := a / 64) (by omega) (by omega)
      rw [hslot] at hr
      cases hr
    simp [this]
  | some r =>
    have hbase := slotBase_of_slotReg hslot
    rw [Bool.and_eq_true, feedsConsts_iff, decide_eq_true_eq]
    have : Spec.slotBase r < 0x240 ↔ a < 0x240 := by omega
    rw [this]

/-- A word of such a slot changes P, A, B, GX or GY and nothing else. -/
theorem State.storeWord_param_frame {s : State} {a : Nat} (ha : a % 4 = 0) (v : Word) {r : WideReg}
    (hslot : slotReg (a / 64) = some r) (hr : r.feedsConsts = true) :
    ∃ p a' b gx gy, s.storeWord a v =
      { s with params := { s.params with p := p, a := a', b := b, gx := gx, gy := gy } } := by
  refine storeWord_keeps (P := fun u => ∃ p a' b gx gy, u =
    { s with params := { s.params with p := p, a := a', b := b, gx := gx, gy := gy } }) v ?_ ⟨_, _, _, _, _, rfl⟩
  rintro u j b hj ⟨_, _, _, _, _, hu⟩
  rw [← (slot_of_lane ha hj).1] at hslot
  rcases Nat.lt_or_ge ((a + j) % 64) u.cfg.flen with ho | ho
  · rw [busSetByte_register b hslot ho, hu]
    cases r with
    | p | a | b | gx | gy => exact ⟨_, _, _, _, _, rfl⟩
    | _ => cases hr
  · exact ⟨_, _, _, _, _, (busSetByte_beyond b hslot ho).trans hu⟩

/-! ## The control registers by address (10_state.md R29 to R44) -/

namespace CtlReg

/-- Where a control register lies (R29 to R43). -/
def addr : CtlReg → Nat
  | .id => 0x000 | .config => 0x004 | .cmd => 0x008 | .status => 0x00C
  | .errcode => 0x010 | .ctrl => 0x014 | .maxatt => 0x018 | .att => 0x01C
  | .msglen => 0x020 | .reclen => 0x024 | .outcap => 0x028 | .result => 0x02C
  | .seedlen => 0x030 | .kslen => 0x034 | .rnglen => 0x038 | .rngpos => 0x03C
  | .phase => 0x040 | .cof => 0x044 | .pinv0 => 0x048

theorem at_eq_some {a : Nat} {r : CtlReg} : CtlReg.at a = some r ↔ a = r.addr := by
  constructor
  · intro h
    simp only [CtlReg.at] at h
    split at h <;> cases h <;> rfl
  · rintro rfl
    cases r <;> rfl

/-- A word's address is a register's exactly when the register is found there. -/
theorem eq_ofNat_addr_iff (a : Word) (r : CtlReg) : a = BitVec.ofNat 32 r.addr ↔ CtlReg.at a.toNat = some r := by
  have hlt : r.addr < 2 ^ 32 := by cases r <;> decide
  rw [at_eq_some, ← BitVec.toNat_inj, BitVec.toNat_ofNat, Nat.mod_eq_of_lt hlt]

/-- No control register's write touches PVALID or the constants. -/
theorem write_pvalid (s : State) (v : Word) (r : CtlReg) :
    (r.write s v).status.pvalid = s.status.pvalid ∧ (r.write s v).consts = s.consts := by
  cases r with
  | cmd | rnglen | rngpos => 
    simp only [CtlReg.write]
    split
    · exact ⟨rfl, rfl⟩
    · exact ⟨rfl, rfl⟩
  | _ => exact ⟨rfl, rfl⟩

end CtlReg

/-- What an idle write below 0x100 does, told by the register `o` found there, if any: every field of the control
registers that it stores, and that it stores nothing else (R34 to R44). -/
theorem State.writeIdle_effect {s : State} {a : Nat} (v : Word) (h : a < 0x100) (hcmd : CtlReg.at a ≠ some .cmd)
    (hstatus : CtlReg.at a ≠ some .status) :
    s.writeIdle a v = { s with
      ctrl := (s.writeIdle a v).ctrl
      regs := (s.writeIdle a v).regs
      params := { s.params with cof := if CtlReg.at a = some .cof then v else s.params.cof } } ∧
    (CtlReg.at a ≠ some .ctrl → (s.writeIdle a v).ctrl = s.ctrl) ∧
    (CtlReg.at a = some .ctrl → (s.writeIdle a v).ctrl =
      { ieDone := v.getLsbD 0, ieErr := v.getLsbD 1, hsel := v.extractLsb' 4 2, noempty := v.getLsbD 8
        testrng := if s.cfg.testEn then v.getLsbD 12 else s.ctrl.testrng }) ∧
    (s.writeIdle a v).regs = { s.regs with
      maxatt := if CtlReg.at a = some .maxatt then v.setWidth 8 else s.regs.maxatt
      msglen := if CtlReg.at a = some .msglen then v else s.regs.msglen
      reclen := if CtlReg.at a = some .reclen then v else s.regs.reclen
      outcap := if CtlReg.at a = some .outcap then v else s.regs.outcap
      seedlen := if CtlReg.at a = some .seedlen then v.setWidth 8 else s.regs.seedlen
      kslen := if CtlReg.at a = some .kslen then v else s.regs.kslen
      rnglen := if CtlReg.at a = some .rnglen ∧ s.cfg.testEn = true then BitVec.ofNat 9 (min v.toNat 256)
                else s.regs.rnglen
      rngpos := if CtlReg.at a = some .rngpos ∧ s.cfg.testEn = true then BitVec.ofNat 9 (min v.toNat 256)
                else s.regs.rngpos } := by
  cases hr : CtlReg.at a with
  | none => simp [writeIdle_reserved v h hr]
  | some r =>
    rw [hr] at hcmd hstatus
    rw [writeIdle_control v h hr]
    cases r with
    | cmd => exact absurd rfl hcmd
    | status => exact absurd rfl hstatus
    | rnglen | rngpos => cases ht : s.cfg.testEn <;> simp [CtlReg.write, ht, saturate256]
    | maxatt | seedlen => simp [CtlReg.write, BitVec.setWidth_eq_extractLsb']
    | _ => simp [CtlReg.write]

/-- A word of P, A, B, GX or GY that holds register bytes: PVALID goes, and of the state only those registers (R23). -/
theorem State.writeIdle_param {s : State} {a : Nat} (ha : a % 4 = 0) (v : Word) (hlo : 0x100 ≤ a) (hhi : a < 0x240)
    (ho : a % 64 < s.cfg.flen) :
    ∃ p a' b gx gy, s.writeIdle a v =
      ({ s with params := { s.params with p := p, a := a', b := b, gx := gx, gy := gy } } : State).clearPvalid := by
  obtain ⟨r, hslot, hr⟩ := slotReg_param (n := a / 64) (by omega) (by omega)
  obtain ⟨p, a', b, gx, gy, he⟩ := State.storeWord_param_frame ha v hslot hr
  exact ⟨p, a', b, gx, gy, by rw [writeIdle_of_le v hlo, if_pos ((s.clearsPvalid_iff hlo).mpr ⟨hhi, ho⟩), he]⟩

/-- Any other word leaves PVALID, and every word the constants (R23). -/
theorem State.writeIdle_pvalid (s : State) (a : Nat) (v : Word) :
    (¬(0x100 ≤ a ∧ a < 0x240 ∧ a % 64 < s.cfg.flen) → (s.writeIdle a v).status.pvalid = s.status.pvalid) ∧
    (s.writeIdle a v).consts = s.consts := by
  rcases Nat.lt_or_ge a 0x100 with h | h
  · cases hr : CtlReg.at a with
    | none => rw [writeIdle_reserved v h hr]; exact ⟨fun _ => rfl, rfl⟩
    | some r =>
      rw [writeIdle_control v h hr]
      obtain ⟨hp, hc⟩ := r.write_pvalid s v
      exact ⟨fun _ => hp, hc⟩
  · obtain ⟨_, _, _, _, _, he⟩ := s.storeWord_frame a v
    rw [writeIdle_of_le v h, he]
    split
    · next hc => exact ⟨fun hn => absurd ⟨h, (s.clearsPvalid_iff h).mp hc⟩ hn, rfl⟩
    · exact ⟨fun _ => rfl, rfl⟩

/-- Settles O57: below 0x100 the write is the one of the register found there, and from 0x100 on PVALID is cleared by
the words of P, A, B, GX and GY alone. -/
theorem controlAndParameterWritesTakeEffect : Obligations.ControlAndParameterWritesTakeEffect := by
  intro s addr v rest hturns ha hb
  have hpvalid := ({ s with turns := rest } : State).writeIdle_pvalid addr.toNat v
  refine ⟨({ s with turns := rest } : State).writeIdle addr.toNat v, ?_, fun hlt hcmd hstatus => ?_,
    fun ⟨hlo, hhi, ho⟩ => ?_, hpvalid⟩
  · rw [step_of_host_turn hturns, State.hostAccess_write_idle (s := { s with turns := rest }) v ha hb]
  · have h (r : CtlReg) := CtlReg.eq_ofNat_addr_iff addr r
    have heffect := State.writeIdle_effect (s := { s with turns := rest }) v hlt (fun e => hcmd ((h .cmd).mpr e))
      (fun e => hstatus ((h .status).mpr e))
    simp only [ne_eq, ← h] at heffect
    obtain ⟨hframe, hother, hctrl, hregs⟩ := heffect
    refine ⟨hframe, hother, fun e => ?_, hregs⟩
    rw [hctrl e]
    exact ⟨rfl, rfl, by simp [Nat.shiftRight_eq_div_pow], rfl, rfl⟩
  · obtain ⟨_, _, _, _, _, he⟩ := State.writeIdle_param (s := { s with turns := rest }) ha v hlo hhi ho
    rw [he]
    exact ⟨rfl, rfl, rfl, rfl, rfl, rfl, rfl⟩

/-! ## What the commands may write (10_state.md R21 to R23, R28, R36, R40; 20_memory.md R72, R81) -/

/-- Byte address `a` lies in buffer `b`, within its capacity. -/
def Buffer.Holds (c : Config) (b : Buffer) (a : Nat) : Prop := b.base ≤ a ∧ a < b.base + b.cap c

/-- The buffer in whose window of the bus map (R71) a byte address lies, if in any. -/
def Buffer.ofAddr (a : Nat) : Buffer :=
  if a < 0xC80 then .tag else if a < 0xD00 then .seed else if a < 0x1000000 then .rngbuf
  else if a < 0x2000000 then .msg else if a < 0x3000000 then .ks else .record

/-- R6's bound on MSG_CAP keeps MSG and KS within their windows. -/
theorem Buffer.ofAddr_of_holds {c : Config} (hs : c.Legal) {b : Buffer} {a : Nat} (h : b.Holds c a) :
    Buffer.ofAddr a = b := by
  obtain ⟨-, -, -, ⟨-, hmsg⟩, -⟩ := hs
  obtain ⟨hlo, hhi⟩ := h
  unfold Buffer.ofAddr
  cases b <;> simp only [Buffer.base, Buffer.cap] at hlo hhi <;> grind

/-- The buffers do not overlap. -/
theorem Buffer.eq_of_holds {c : Config} (hs : c.Legal) {b b' : Buffer} {a : Nat} (h : b.Holds c a)
    (h' : b'.Holds c a) : b = b' :=
  (Buffer.ofAddr_of_holds hs h).symm.trans (Buffer.ofAddr_of_holds hs h')

/-- A stored byte string touches nothing outside its range: this needs no canonical form. -/
theorem Memory.read_writeBytes_outside (m : Memory) {base n a : Nat} {bs : List Byte} (hn : bs.length ≤ n)
    (h : ¬(base ≤ a ∧ a < base + n)) : (m.writeBytes base bs).read a = m.read a := by
  induction bs generalizing m base n with
  | nil => rfl
  | cons b bs ih =>
    rw [List.length_cons] at hn
    rw [Memory.writeBytes, ih (n := n - 1) _ (by omega) (by omega), Memory.read_write_other _ _ _ _ (by omega)]

theorem Memory.read_clear_outside (m : Memory) {base n a : Nat} (h : ¬(base ≤ a ∧ a < base + n)) :
    (m.clear base n).read a = m.read a := by
  rw [Memory.read_clear, if_neg h]

/-- Every byte outside the buffers that R72 lets the command write reads as before. -/
def MemoryFrame (i : Instr) (s t : State) : Prop :=
  ∀ a, (∀ b, writesBuffer i b = true → ¬b.Holds s.cfg a) → t.mem.read a = s.mem.read a

theorem CommandWrites.memoryFrame {s u : State} {i : Instr} (hs : s.cfg.Legal) (h : CommandWrites s i u) :
    MemoryFrame i s u := by
  intro a ha
  cases h with
  | zeroized =>
    have hcfg : s.clearRegs.cfg = s.cfg := rfl
    simp only [State.zeroized, State.clearBuf_mem, State.clearBuf_cfg, hcfg]
    rw [Memory.read_clear_outside _ (ha .rngbuf rfl), Memory.read_clear_outside _ (ha .tag rfl),
      Memory.read_clear_outside _ (ha .seed rfl), Memory.read_clear_outside _ (ha .ks rfl),
      Memory.read_clear_outside _ (ha .msg rfl)]
    rfl
  | keystream bs hlen => exact Memory.read_writeBytes_outside _ hlen (ha .ks rfl)
  | record _ _ r hlen => exact Memory.read_writeBytes_outside _ (hlen hs) (ha .record rfl)
  | fields rd ra r _ _ htag hbody =>
    rw [State.putFields, State.putMessage_mem, Memory.read_writeBytes_outside _ hbody (ha .msg rfl)]
    exact Memory.read_writeBytes_outside _ (htag hs) (ha .tag rfl)
  | encrypted _ r _ _ hlen => exact Memory.read_writeBytes_outside _ (hlen hs) (ha .record rfl)
  | decrypted m hlen => exact Memory.read_writeBytes_outside _ hlen (ha .msg rfl)
  | _ => rfl

theorem FaultWrites.memoryFrame {s u : State} {i : Instr} (h : FaultWrites s i u) : MemoryFrame i s u := by
  intro a ha
  cases h with
  | encrypt _ _ _ => exact Memory.read_clear_outside _ (ha .record rfl)
  | decrypt => exact Memory.read_clear_outside _ (ha .msg rfl)
  | _ => rfl

/-- The registers the command leaves: a parameter, key, constant or control register changes only where a rule names the
command (R21, R22, R23, R36, R40). -/
structure RegisterFrame (i : Instr) (s t : State) : Prop where
  params : t.params = s.params
  qx : t.keys.qx = s.keys.qx
  qy : t.keys.qy = s.keys.qy
  ctrl : t.ctrl = s.ctrl
  maxatt : t.regs.maxatt = s.regs.maxatt
  outcap : t.regs.outcap = s.regs.outcap
  d : i ≠ .zeroize → t.keys.d = s.keys.d
  consts : i ≠ .setup → t.consts = s.consts
  pvalid : i ≠ .setup → t.status.pvalid = s.status.pvalid
  att : i ≠ .encrypt → t.regs.att = s.regs.att
  result : i ≠ .ctsize → i ≠ .ptsize → t.regs.result = s.regs.result

/-- A command other than SETUP and ZEROIZE leaves the domain, key and constant registers. -/
theorem RegisterFrame.of_same {i : Instr} {s t : State} (hp : t.params = s.params) (hk : t.keys = s.keys)
    (hctrl : t.ctrl = s.ctrl) (hconsts : t.consts = s.consts) (hv : t.status.pvalid = s.status.pvalid)
    (hmax : t.regs.maxatt = s.regs.maxatt) (hout : t.regs.outcap = s.regs.outcap)
    (hatt : i ≠ .encrypt → t.regs.att = s.regs.att)
    (hres : i ≠ .ctsize → i ≠ .ptsize → t.regs.result = s.regs.result) : RegisterFrame i s t :=
  ⟨hp, by rw [hk], by rw [hk], hctrl, hmax, hout, fun _ => by rw [hk], fun _ => hconsts, fun _ => hv, hatt, hres⟩

/-- None of these registers is a cursor. -/
theorem RegisterFrame.of_setCursor {i : Instr} {s t : State} {c : Cursor} (h : RegisterFrame i (s.setCursor c) t) :
    RegisterFrame i s t :=
  ⟨h.params, h.qx, h.qy, h.ctrl, h.maxatt, h.outcap, h.d, h.consts, h.pvalid, h.att, h.result⟩

theorem CommandWrites.registerFrame {s u : State} {i : Instr} (h : CommandWrites s i u) : RegisterFrame i s u := by
  cases h with
  | consts =>
    exact ⟨rfl, rfl, rfl, rfl, rfl, rfl, fun _ => rfl, fun h => absurd rfl h, fun h => absurd rfl h, fun _ => rfl,
      fun _ _ => rfl⟩
  | zeroized =>
    exact ⟨rfl, rfl, rfl, rfl, rfl, rfl, fun h => absurd rfl h, fun _ => rfl, fun _ => rfl, fun _ => rfl,
      fun _ _ => rfl⟩
  | result _ v hi =>
    exact .of_same rfl rfl rfl rfl rfl rfl rfl (fun _ => rfl) fun hct hpt => absurd hi (by simp [hct, hpt])
  | encrypted c r att _ _ =>
    exact .of_setCursor (c := c) (.of_same rfl rfl rfl rfl rfl rfl rfl (fun h => absurd rfl h) fun _ _ => rfl)
  | _ => exact .of_same rfl rfl rfl rfl rfl rfl rfl (fun _ => rfl) fun _ _ => rfl

theorem FaultWrites.registerFrame {s u : State} {i : Instr} (h : FaultWrites s i u) : RegisterFrame i s u := by
  cases h with
  | setup =>
    exact ⟨rfl, rfl, rfl, rfl, rfl, rfl, fun _ => rfl, fun h => absurd rfl h, fun h => absurd rfl h, fun _ => rfl,
      fun _ _ => rfl⟩
  | encrypt c att _ =>
    exact .of_setCursor (c := c) (.of_same rfl rfl rfl rfl rfl rfl rfl (fun h => absurd rfl h) fun _ _ => rfl)
  | _ => exact .of_same rfl rfl rfl rfl rfl rfl rfl (fun _ => rfl) fun _ _ => rfl

/-- Only CMP, PEQ, PISINF and ONC write a flag, and not when they fault (R28). -/
theorem CommandWrites.flags_eq {s u : State} {i : Instr} (h : CommandWrites s i u) (hi : writesFlags i = false) :
    u.flags = s.flags := by
  cases h with
  | flags _ fl hfl => rw [hi] at hfl; cases hfl
  | _ => rfl

theorem FaultWrites.flags_eq {s u : State} {i : Instr} (h : FaultWrites s i u) : u.flags = s.flags := by
  cases h <;> rfl

theorem CommandEnds.registerFrame {s t : State} {i : Instr} (h : CommandEnds s i t) : RegisterFrame i s t := by
  cases h with
  | completes hu =>
    have h := hu.registerFrame
    exact ⟨h.params, h.qx, h.qy, h.ctrl, h.maxatt, h.outcap, h.d, h.consts, h.pvalid, h.att, h.result⟩
  | faults hu F =>
    have h := hu.registerFrame
    exact ⟨h.params, h.qx, h.qy, h.ctrl, h.maxatt, h.outcap, h.d, h.consts, h.pvalid, h.att, h.result⟩

theorem CommandEnds.memoryFrame {s t : State} {i : Instr} (hs : s.cfg.Legal) (h : CommandEnds s i t) :
    MemoryFrame i s t := by
  cases h with
  | completes hu => exact fun a ha => hu.memoryFrame hs a ha
  | faults hu F => exact fun a ha => hu.memoryFrame a ha

theorem CommandEnds.flags_eq {s t : State} {i : Instr} (he : s.status.err = false) (h : CommandEnds s i t)
    (hi : writesFlags i = false ∨ t.status.err = true) : t.flags = s.flags := by
  cases h with
  | completes hu =>
    have herr := hu.err_eq.1
    refine hu.flags_eq (hi.resolve_right ?_)
    rw [State.complete_status]
    simp [herr, he]
  | faults hu F => exact hu.flags_eq

/-- Settles O58: every command ends after writes that stay in the registers and buffers the rules name for it. -/
theorem commandsWriteOnlyWhatTheRulesName : Obligations.CommandsWriteOnlyWhatTheRulesName := by
  intro i s t hs he hexec
  have hends := commandEnds_of_exec hexec
  have hmem := hends.memoryFrame hs
  obtain ⟨hp, hqx, hqy, hctrl, hmax, hout, hd, hc, hv, hatt, hres⟩ := hends.registerFrame
  refine ⟨hends.flags_eq he, hp, hqx, hqy, hctrl, hmax, hout, hd, fun h => ⟨hc h, hv h⟩, hatt, hres,
    fun b hb a hlo hhi => hmem a fun b' hb' hold => ?_, fun a hout => hmem a fun b _ => hout b⟩
  rw [Buffer.eq_of_holds hs hold ⟨hlo, hhi⟩, hb] at hb'
  cases hb'

/-! ## What a word write from 0x100 on stores (10_state.md R26, 20_memory.md R71, R75, R77) -/

theorem toNat_laneOf (v : Word) (j : Nat) : (laneOf v j).toNat = Spec.lane v j := BitVec.toNat_ofNat _ _

/-! ### The registers -/

theorem slotBase_mod (r : WideReg) : Spec.slotBase r % 64 = 0 := by
  rw [slotBase_of_slotReg (slotReg_slotBase r), Nat.mul_mod_right]

/-- Byte `o` of a register lies at its slot's address plus `o`. -/
theorem slotReg_eq_some_iff_byte {a o : Nat} {r : WideReg} (ho : o < 64) :
    Spec.slotBase r + o = a ↔ slotReg (a / 64) = some r ∧ a % 64 = o := by
  have hmod := slotBase_mod r
  rw [slotReg_eq_some]
  omega

/-- One byte write, seen byte by byte in every wide register. -/
theorem WideReg.regByte_busSetByte {s : State} (hF : s.cfg.flen ≤ 64) (a : Nat) (b : Byte) (q : WideReg) {o : Nat}
    (ho : o < s.cfg.flen) :
    Spec.regByte s.cfg.flen (q.get (s.busSetByte a b)) o =
      if q ≠ .rr ∧ q ≠ .mu ∧ Spec.slotBase q + o = a then b.toNat else Spec.regByte s.cfg.flen (q.get s) o := by
  simp only [get_busSetByte, slotReg_eq_some_iff_byte (ho.trans_le hF)]
  by_cases hw : slotReg (a / 64) = some q ∧ a % 64 < s.cfg.flen ∧ q ≠ .rr ∧ q ≠ .mu
  · obtain ⟨hslot, hlt, hrr, hmu⟩ := hw
    rw [if_pos ⟨hslot, hlt, hrr, hmu⟩]
    rcases Nat.lt_trichotomy o (a % 64) with h | h | h
    · rw [if_neg (by omega), Spec.regByte, setByteAt_div hlt (by omega), Spec.regByte]
    · rw [if_pos ⟨hrr, hmu, hslot, h.symm⟩, h, Spec.regByte, setByteAt_byte]
    · have hk : s.cfg.flen - 1 - o + 1 ≤ s.cfg.flen - 1 - a % 64 := by omega
      have hmod := setByteAt_mod hk (q.get s) b
      rw [if_neg (by omega), Spec.regByte, Spec.regByte, ← Nat.mod_mul_right_div_self, ← Nat.mod_mul_right_div_self,
        ← Nat.pow_succ, hmod]
  · rw [if_neg hw]
    refine (if_neg ?_).symm
    rintro ⟨hrr, hmu, hslot, ho'⟩
    exact hw ⟨hslot, by omega, hrr, hmu⟩

theorem WideReg.div_busSetByte (s : State) (a : Nat) (b : Byte) (q : WideReg) :
    q.get (s.busSetByte a b) / 256 ^ s.cfg.flen = q.get s / 256 ^ s.cfg.flen := by
  rw [get_busSetByte]
  split
  · next h => exact setByteAt_div h.2.1 (by omega) _ _
  · rfl

/-- A word write replaces the bytes of the big-endian image that lie in the word, and nothing above the image. -/
theorem WideReg.regByte_storeWord {s : State} (hF : s.cfg.flen ≤ 64) (a : Nat) (v : Word) (q : WideReg) :
    q.get (s.storeWord a v) / 256 ^ s.cfg.flen = q.get s / 256 ^ s.cfg.flen ∧ ∀ o, o < s.cfg.flen →
      Spec.regByte s.cfg.flen (q.get (s.storeWord a v)) o =
        if q ≠ .rr ∧ q ≠ .mu ∧ a ≤ Spec.slotBase q + o ∧ Spec.slotBase q + o < a + 4
        then Spec.lane v (Spec.slotBase q + o - a) else Spec.regByte s.cfg.flen (q.get s) o := by
  refine (State.storeWord_lanes (P := fun n u => u.cfg = s.cfg ∧
    q.get u / 256 ^ s.cfg.flen = q.get s / 256 ^ s.cfg.flen ∧ ∀ o, o < s.cfg.flen →
      Spec.regByte s.cfg.flen (q.get u) o =
        if q ≠ .rr ∧ q ≠ .mu ∧ a ≤ Spec.slotBase q + o ∧ Spec.slotBase q + o < a + n
        then Spec.lane v (Spec.slotBase q + o - a) else Spec.regByte s.cfg.flen (q.get s) o)
    (fun u j _ ⟨hcfg, hdiv, hbyte⟩ => ⟨by rw [State.busSetByte_cfg, hcfg], ?_, fun o ho => ?_⟩)
    ⟨rfl, rfl, fun o _ => (if_neg (by omega)).symm⟩).2
  · rw [← hcfg, div_busSetByte, hcfg, hdiv]
  · rw [← hcfg, regByte_busSetByte (by rw [hcfg]; exact hF) _ _ _ (by rw [hcfg]; exact ho), hcfg, hbyte o ho,
      toNat_laneOf]
    by_cases hj : Spec.slotBase q + o = a + j
    · by_cases hw : q ≠ .rr ∧ q ≠ .mu
      · rw [if_pos ⟨hw.1, hw.2, hj⟩, if_pos ⟨hw.1, hw.2, by omega, by omega⟩, hj, Nat.add_sub_cancel_left]
      · have hout {c : Prop} : ¬(q ≠ .rr ∧ q ≠ .mu ∧ c) := fun ⟨hrr, hmu, _⟩ => hw ⟨hrr, hmu⟩
        rw [if_neg hout, if_neg hout, if_neg hout]
    · rw [if_neg (fun h => hj h.2.2)]
      congr 1
      simp only [eq_iff_iff]
      refine and_congr_right fun _ => and_congr_right fun _ => ?_
      omega

/-! ### The buffers -/

theorem inBuffer_iff (c : Config) (a : Nat) : inBuffer c a = true ↔ Spec.Buffered c a := by
  constructor
  · intro h
    simp only [inBuffer, List.any_cons, List.any_nil, Bool.or_false, Bool.or_eq_true, Bool.and_eq_true,
      decide_eq_true_eq] at h
    rcases h with (h | h | h | h | h) | ⟨⟨ht, hlo⟩, hhi⟩
    · exact ⟨.msg, nofun, h⟩
    · exact ⟨.ks, nofun, h⟩
    · exact ⟨.record, nofun, h⟩
    · exact ⟨.tag, nofun, h⟩
    · exact ⟨.seed, nofun, h⟩
    · exact ⟨.rngbuf, fun _ => ht, hlo, hhi⟩
  · rintro ⟨b, hpresent, hlo, hhi⟩
    cases b with
    | rngbuf => simp [inBuffer, hpresent rfl, hlo, hhi]
    | _ => simp [inBuffer, hlo, hhi]

/-- The buffers lie above the slots. -/
theorem slotReg_of_buffered {c : Config} {a : Nat} (h : Spec.Buffered c a) : slotReg (a / 64) = none := by
  obtain ⟨b, -, hlo, -⟩ := h
  have hbase : 0xC00 ≤ b.base := by cases b <;> decide
  exact slotReg_of_ge (by omega)

theorem WideReg.set_mem (s : State) (v : Nat) (r : WideReg) : (r.set s v).mem = s.mem := by
  obtain ⟨_, _, _, _, h⟩ := WideReg.set_frame s v r
  rw [h]

/-- One byte write, seen in the buffers. -/
theorem State.busSetByte_mem_buffered {s : State} {a : Nat} (b : Byte) (h : inBuffer s.cfg a = true) :
    (s.busSetByte a b).mem = s.mem.write a b := by
  rw [busSetByte_buffer b (slotReg_of_buffered ((inBuffer_iff _ _).mp h)) h]

theorem State.busSetByte_mem_other {s : State} {a : Nat} (b : Byte) (h : inBuffer s.cfg a = false) :
    (s.busSetByte a b).mem = s.mem := by
  cases hslot : slotReg (a / 64) with
  | none => rw [busSetByte_reserved b hslot h]
  | some r =>
    rcases Nat.lt_or_ge (a % 64) s.cfg.flen with ho | ho
    · rw [busSetByte_register b hslot ho, WideReg.set_mem]
    · rw [busSetByte_beyond b hslot ho]

/-- A word write stores its lanes at the buffer bytes that lie in the word. -/
theorem State.read_storeWord {s : State} (hwf : s.mem.wf = true) (a : Nat) (v : Word) (a' : Nat) :
    (s.storeWord a v).mem.read a' =
      if inBuffer s.cfg a' = true ∧ a ≤ a' ∧ a' < a + 4 then laneOf v (a' - a) else s.mem.read a' := by
  refine (State.storeWord_lanes (P := fun n u => u.cfg = s.cfg ∧ u.mem.wf = true ∧ ∀ a', u.mem.read a' =
      if inBuffer s.cfg a' = true ∧ a ≤ a' ∧ a' < a + n then laneOf v (a' - a) else s.mem.read a')
    (fun u j _ ⟨hcfg, hu, hread⟩ => ?_) ⟨rfl, hwf, fun a' => (if_neg (by omega)).symm⟩).2.2 a'
  rw [State.busSetByte_cfg]
  cases hb : inBuffer u.cfg (a + j) with
  | true =>
    rw [busSetByte_mem_buffered _ hb]
    refine ⟨hcfg, Memory.wf_write _ _ _ hu, fun a' => ?_⟩
    by_cases ha' : a' = a + j
    · subst ha'
      rw [Memory.read_write_same _ _ _ hu, if_pos ⟨by rwa [← hcfg], by omega, by omega⟩, Nat.add_sub_cancel_left]
    · rw [Memory.read_write_other _ _ _ _ ha', hread]
      congr 1
      exact propext (and_congr_right fun _ => by omega)
  | false =>
    rw [busSetByte_mem_other _ hb]
    refine ⟨hcfg, hu, fun a' => ?_⟩
    rw [hread]
    congr 1
    refine propext (and_congr_right fun hin => ?_)
    have ha' : a' ≠ a + j := by
      rintro rfl
      rw [← hcfg, hb] at hin
      cases hin
    omega

/-! ### The whole write -/

theorem WideReg.set_cof (s : State) (v : Nat) (r : WideReg) : (r.set s v).params.cof = s.params.cof := by
  cases r <;> rfl

theorem State.storeWord_cof (s : State) (a : Nat) (v : Word) : (s.storeWord a v).params.cof = s.params.cof := by
  refine storeWord_keeps (P := fun u => u.params.cof = s.params.cof) v (fun u j b _ hu => ?_) rfl
  cases hslot : slotReg ((a + j) / 64) with
  | none =>
    cases hb : inBuffer u.cfg (a + j) with
    | true => rw [busSetByte_buffer b hslot hb]; exact hu
    | false => rw [busSetByte_reserved b hslot hb]; exact hu
  | some r =>
    rcases Nat.lt_or_ge ((a + j) % 64) u.cfg.flen with ho | ho
    · rw [busSetByte_register b hslot ho, WideReg.set_cof]; exact hu
    · rw [busSetByte_beyond b hslot ho]; exact hu

/-- An idle write from 0x100 on is the word's store, but for PVALID: its frame, the registers and the buffers. -/
theorem State.writeIdle_frame (s : State) {a : Nat} (v : Word) (h : 0x100 ≤ a) :
    (s.writeIdle a v).status = { s.status with pvalid := (s.writeIdle a v).status.pvalid } ∧
    s.writeIdle a v = { s with
      params := (s.writeIdle a v).params, keys := (s.writeIdle a v).keys, f := (s.writeIdle a v).f
      pt := (s.writeIdle a v).pt, mem := (s.writeIdle a v).mem, status := (s.writeIdle a v).status } := by
  obtain ⟨_, _, _, _, _, he⟩ := s.storeWord_frame a v
  rw [writeIdle_of_le v h, he]
  split
  · exact ⟨rfl, rfl⟩
  · exact ⟨rfl, rfl⟩

theorem State.writeIdle_mem (s : State) {a : Nat} (v : Word) (h : 0x100 ≤ a) :
    (s.writeIdle a v).mem = (s.storeWord a v).mem := by
  rw [writeIdle_of_le v h]
  split
  · rfl
  · rfl

theorem State.writeIdle_cof (s : State) {a : Nat} (v : Word) (h : 0x100 ≤ a) :
    (s.writeIdle a v).params.cof = s.params.cof := by
  rw [writeIdle_of_le v h, ← s.storeWord_cof a v]
  split
  · rfl
  · rfl

theorem WideReg.get_writeIdle (s : State) {a : Nat} (v : Word) (h : 0x100 ≤ a) (q : WideReg) :
    q.get (s.writeIdle a v) = q.get (s.storeWord a v) := by
  rw [State.writeIdle_of_le v h]
  split
  · exact get_congr rfl rfl rfl rfl rfl q
  · rfl

/-! ### A word within a register (R75, W a multiple of 32) -/

/-- A store in one register's slot touches no buffer. -/
theorem State.storeWord_mem_of_slot {s : State} {a : Nat} (ha : a % 4 = 0) (v : Word) {r : WideReg}
    (hslot : slotReg (a / 64) = some r) : (s.storeWord a v).mem = s.mem := by
  refine storeWord_keeps (P := fun u => u.mem = s.mem) v (fun u j b hj hu => ?_) rfl
  rw [← (slot_of_lane ha hj).1] at hslot
  rcases Nat.lt_or_ge ((a + j) % 64) u.cfg.flen with ho | ho
  · rw [busSetByte_register b hslot ho, WideReg.set_mem, hu]
  · rw [busSetByte_beyond b hslot ho, hu]

/-- The bytes of the image before the word, and those after it, stay. -/
theorem WideReg.get_storeWord_outside {s : State} {a k : Nat} (ha : a % 4 = 0) (v : Word) (q : WideReg)
    (hk : a % 64 + 4 + k = s.cfg.flen) :
    q.get (s.storeWord a v) / 256 ^ (k + 4) = q.get s / 256 ^ (k + 4) ∧
    q.get (s.storeWord a v) % 256 ^ k = q.get s % 256 ^ k := by
  refine (State.storeWord_keeps (P := fun u => u.cfg = s.cfg ∧ q.get u / 256 ^ (k + 4) = q.get s / 256 ^ (k + 4) ∧
    q.get u % 256 ^ k = q.get s % 256 ^ k) v (fun u j b hj ⟨hcfg, hdiv, hmod⟩ => ?_) ⟨rfl, rfl, rfl⟩).2
  obtain ⟨-, hoff⟩ := slot_of_lane ha hj
  rw [State.busSetByte_cfg, get_busSetByte]
  refine ⟨hcfg, ?_⟩
  split
  · next h =>
    have hlt := h.2.1
    rw [hcfg] at hlt ⊢
    rw [setByteAt_div hlt (by omega), setByteAt_mod (by omega)]
    exact ⟨hdiv, hmod⟩
  · exact ⟨hdiv, hmod⟩

/-- Four bytes that are the lanes of a word make up the word. -/
theorem mod_eq_of_lanes {x : Nat} {v : Word} (h : ∀ j, j < 4 → x / 256 ^ (3 - j) % 256 = Spec.lane v j) :
    x % 256 ^ 4 = v.toNat := by
  have hv := v.isLt
  have h0 := h 0 (by omega)
  have h1 := h 1 (by omega)
  have h2 := h 2 (by omega)
  have h3 := h 3 (by omega)
  simp only [Spec.lane] at h0 h1 h2 h3
  norm_num at h0 h1 h2 h3 ⊢
  omega

/-- The word at byte offset `o` of a register's slot replaces the four bytes from `o`, with `k` bytes of the image after
them. -/
theorem WideReg.get_storeWord_word {s : State} (hF : s.cfg.flen ≤ 64) {a o k : Nat} (ha : a % 4 = 0) (v : Word)
    {r : WideReg} (hrr : r ≠ .rr) (hmu : r ≠ .mu) (hbase : Spec.slotBase r + o = a) (hk : o + 4 + k = s.cfg.flen) :
    r.get (s.storeWord a v) =
      r.get s / 256 ^ (k + 4) * 256 ^ (k + 4) + v.toNat * 256 ^ k + r.get s % 256 ^ k := by
  obtain ⟨hslot, hoff⟩ := (slotReg_eq_some_iff_byte (by omega)).mp hbase
  obtain ⟨hdiv, hmod⟩ := get_storeWord_outside (s := s) (k := k) ha v r (by omega)
  obtain ⟨-, hbyte⟩ := regByte_storeWord hF a v r
  generalize r.get (s.storeWord a v) = x at hdiv hmod hbyte ⊢
  have hword : x / 256 ^ k % 256 ^ 4 = v.toNat := by
    refine mod_eq_of_lanes fun j hj => ?_
    have h := hbyte (o + j) (by omega)
    rw [if_pos ⟨hrr, hmu, by omega, by omega⟩, Spec.regByte,
      show s.cfg.flen - 1 - (o + j) = k + (3 - j) by omega, Nat.pow_add, ← Nat.div_div_eq_div_mul,
      show Spec.slotBase r + (o + j) - a = j by omega] at h
    exact h
  calc x = x / 256 ^ k / 256 ^ 4 * 256 ^ (k + 4) + x / 256 ^ k % 256 ^ 4 * 256 ^ k + x % 256 ^ k := by
        conv_lhs => rw [← Nat.div_add_mod x (256 ^ k), ← Nat.div_add_mod (x / 256 ^ k) (256 ^ 4)]
        ring
    _ = _ := by rw [hword, hmod, Nat.div_div_eq_div_mul, ← Nat.pow_add, hdiv]

theorem wordOfBytes_lanes (v : Word) : wordOfBytes (laneOf v 0) (laneOf v 1) (laneOf v 2) (laneOf v 3) = v := by
  apply BitVec.eq_of_toNat_eq
  have hv := v.isLt
  simp only [wordOfBytes, BitVec.toNat_ofNat, toNat_laneOf, Spec.lane]
  norm_num
  omega

/-- A word of a register but D reads back. -/
theorem State.readIdle_storeWord {s : State} (hF : s.cfg.flen ≤ 64) {a o : Nat} (v : Word) {r : WideReg}
    (hrr : r ≠ .rr) (hmu : r ≠ .mu) (hd : r ≠ .d) (ho4 : o % 4 = 0) (hbase : Spec.slotBase r + o = a)
    (hlo : 0x100 ≤ a) (ho : o + 4 ≤ s.cfg.flen) : (s.storeWord a v).readIdle a = v := by
  have hlane (j : Nat) (hj : j < 4) : (s.storeWord a v).busByte (a + j) = laneOf v j := by
    have hbyte : Spec.slotBase r + (o + j) = a + j := by omega
    obtain ⟨hslot, hoff⟩ := (slotReg_eq_some_iff_byte (by omega)).mp hbyte
    have hread : r.readable = true := by
      cases r with
      | d => exact absurd rfl hd
      | _ => rfl
    have h := (WideReg.regByte_storeWord hF a v r).2 (o + j) (by omega)
    rw [if_pos ⟨hrr, hmu, by omega, by omega⟩, show Spec.slotBase r + (o + j) - a = j by omega] at h
    apply BitVec.eq_of_toNat_eq
    simp only [busByte, hslot, storeWord_cfg, hoff, hread, Bool.true_and]
    rw [if_pos (by simp; omega), toNat_laneOf, byteAt, BitVec.toNat_ofNat, ← h, Spec.regByte]
  rw [readIdle, if_neg hlo.not_gt, hlane 1 (by omega), hlane 2 (by omega), hlane 3 (by omega)]
  rw [show (s.storeWord a v).busByte a = laneOf v 0 from hlane 0 (by omega), wordOfBytes_lanes]

theorem slotBase_ge (r : WideReg) : 0x100 ≤ Spec.slotBase r ∧ Spec.slotBase r < 0xC00 := by
  cases r <;> simp [Spec.slotBase] <;> omega

theorem State.readIdle_writeIdle (s : State) {a : Nat} (v : Word) (h : 0x100 ≤ a) :
    (s.writeIdle a v).readIdle a = (s.storeWord a v).readIdle a := by
  rw [writeIdle_of_le v h]
  split
  · have hbyte (x : Nat) : (s.storeWord a v).clearPvalid.busByte x = (s.storeWord a v).busByte x := by
      simp only [busByte]
      cases slotReg (x / 64) with
      | none => rfl
      | some r => cases r <;> rfl
    rw [readIdle, readIdle, if_neg h.not_gt, if_neg h.not_gt, hbyte, hbyte, hbyte, hbyte]
  · rfl

/-- Settles O56: the four lanes go one by one into the register bytes or buffer bytes at their addresses, and within one
register whose width is a whole number of words they replace one word of its value. -/
theorem registerAndBufferWritesStoreTheirBytes : Obligations.RegisterAndBufferWritesStoreTheirBytes := by
  constructor
  · intro s addr v rest ⟨hlegal, hwf, _⟩ hb ha hlo hturns
    have hF := Config.flen_le hlegal
    obtain ⟨hstatus, hframe⟩ := ({ s with turns := rest } : State).writeIdle_frame v hlo
    have hread := State.read_storeWord (s := { s with turns := rest }) hwf addr.toNat v
    refine ⟨({ s with turns := rest } : State).writeIdle addr.toNat v, ?_, fun r => ?_, fun j hj hbuf => ?_,
      fun a hout => ?_, State.writeIdle_cof _ v hlo, (State.writeIdle_pvalid _ _ v).2, hstatus, hframe⟩
    · rw [step_of_host_turn hturns, State.hostAccess_write_idle (s := { s with turns := rest }) v ha hb]
    · rw [WideReg.get_writeIdle _ v hlo]
      exact WideReg.regByte_storeWord (s := { s with turns := rest }) hF addr.toNat v r
    · rw [State.writeIdle_mem _ v hlo, hread, if_pos ⟨(inBuffer_iff _ _).mpr hbuf, by omega, by omega⟩,
        Nat.add_sub_cancel_left, toNat_laneOf]
    · rw [State.writeIdle_mem _ v hlo, hread,
        if_neg fun ⟨hin, hge, hlt⟩ => hout ⟨hge, hlt, (inBuffer_iff _ _).mp hin⟩]
  · intro s r m v rest hlegal hW hm hb hrr hmu hturns
    obtain ⟨hbase, hbase'⟩ := slotBase_ge r
    have hmod := slotBase_mod r
    have hF := Config.flen_le hlegal
    have hflen : s.cfg.fieldBits = 8 * s.cfg.flen := by rw [Config.flen]; omega
    have haddr : (BitVec.ofNat 32 (Spec.slotBase r + 4 * m)).toNat = Spec.slotBase r + 4 * m := by
      rw [BitVec.toNat_ofNat, Nat.mod_eq_of_lt (by omega)]
    have hslot : slotReg ((Spec.slotBase r + 4 * m) / 64) = some r :=
      ((slotReg_eq_some_iff_byte (by omega)).mp (rfl : Spec.slotBase r + 4 * m = _)).1
    refine ⟨({ s with turns := rest } : State).writeIdle (Spec.slotBase r + 4 * m) v, ?_, ?_, fun q hq => ?_, ?_,
      fun hd => ?_⟩
    · rw [step_of_host_turn hturns,
        State.hostAccess_write_idle (s := { s with turns := rest }) v (by rw [haddr]; omega) hb, haddr]
    · have hpow (k : Nat) : 256 ^ k = 2 ^ (8 * k) := by rw [Nat.pow_mul]
      have hword := WideReg.get_storeWord_word (s := { s with turns := rest }) hF (by omega) v hrr hmu (o := 4 * m) rfl
        (k := s.cfg.flen - 4 - 4 * m) (by show 4 * m + 4 + _ = s.cfg.flen; omega)
      rw [WideReg.get_writeIdle _ v (by omega), hword, hpow, hpow,
        show 8 * (s.cfg.flen - 4 - 4 * m) = s.cfg.fieldBits - 32 - 32 * m by omega,
        show 8 * (s.cfg.flen - 4 - 4 * m + 4) = s.cfg.fieldBits - 32 - 32 * m + 32 by omega]
      rfl
    · rw [WideReg.get_writeIdle _ v (by omega), WideReg.get_storeWord_other (by omega)]
      · rfl
      · intro h
        exact absurd (Option.some.inj (hslot.symm.trans h)).symm hq
    · rw [State.writeIdle_mem _ v (by omega), State.storeWord_mem_of_slot (by omega) v hslot]
    · rw [State.readIdle_writeIdle _ v (by omega)]
      exact State.readIdle_storeWord (s := { s with turns := rest }) hF (o := 4 * m) v hrr hmu hd (by omega) rfl
        (by omega) (by show 4 * m + 4 ≤ s.cfg.flen; omega)

end Sys2Proof.Machine

namespace Sys2Proof.Machine

/-! ## What is stored where (20_memory.md R72, R80) -/

theorem Memory.mem_write {m : Memory} {a : Nat} {b : Byte} {x : Host.Cell} (h : x ∈ m.write a b) :
    x.1 = a ∨ x ∈ m := by
  induction m with
  | nil =>
    simp only [Memory.write] at h
    split at h
    · exact .inr h
    · exact .inl (by rw [List.mem_singleton.mp h])
  | cons c t ih =>
    obtain ⟨k, v⟩ := c
    simp only [Memory.write] at h
    split_ifs at h
    · exact .inr h
    · exact (List.mem_cons.mp h).imp_left (congrArg Prod.fst)
    · exact .inr (List.mem_cons_of_mem _ h)
    · exact (List.mem_cons.mp h).imp (congrArg Prod.fst) (List.mem_cons_of_mem _)
    · rcases List.mem_cons.mp h with rfl | h
      · exact .inr List.mem_cons_self
      · exact (ih h).imp_right (List.mem_cons_of_mem _)

theorem Memory.mem_writeBytes {m : Memory} {base : Nat} {bs : List Byte} {x : Host.Cell}
    (h : x ∈ m.writeBytes base bs) : (base ≤ x.1 ∧ x.1 < base + bs.length) ∨ x ∈ m := by
  induction bs generalizing m base with
  | nil => exact .inr h
  | cons b bs ih =>
    rw [List.length_cons]
    rcases ih h with h | h
    · exact .inl (by omega)
    · exact (Memory.mem_write h).imp_left (by omega)

theorem MemoryInv.congr {s t : State} (h : MemoryInv s) (hcfg : t.cfg = s.cfg) (hmem : t.mem = s.mem) :
    MemoryInv t := by
  rw [MemoryInv, hcfg, hmem]
  exact h

/-- A byte string that fits in its buffer is stored inside the buffers; only the host stores in RNGBUF. -/
theorem MemoryInv.writeBuf {s : State} (h : MemoryInv s) (b : Buffer) (hb : b ≠ .rngbuf) {bs : List Byte}
    (hlen : bs.length ≤ b.cap s.cfg) : MemoryInv (s.writeBuf b bs) := by
  obtain ⟨hlegal, hwf, hin⟩ := h
  refine ⟨hlegal, Memory.wf_writeBytes _ _ _ hwf, fun c hc => ?_⟩
  rcases Memory.mem_writeBytes hc with ⟨hlo, hhi⟩ | hc
  · exact (inBuffer_iff _ _).mpr ⟨b, fun e => absurd e hb, hlo, hhi.trans_le (Nat.add_le_add_left hlen _)⟩
  · exact hin c hc

theorem MemoryInv.clearBuf {s : State} (h : MemoryInv s) (b : Buffer) : MemoryInv (s.clearBuf b) := by
  obtain ⟨hlegal, hwf, hin⟩ := h
  exact ⟨hlegal, Memory.wf_clear _ _ _ hwf, fun c hc => hin c (List.mem_of_mem_filter hc)⟩

theorem MemoryInv.zeroized {s : State} (h : MemoryInv s) : MemoryInv s.zeroized := by
  have hregs : MemoryInv s.clearRegs := h.congr rfl rfl
  exact ((((hregs.clearBuf .msg).clearBuf .ks).clearBuf .seed).clearBuf .tag).clearBuf .rngbuf

/-- RDEC stores a tag and a body that fit. -/
theorem MemoryInv.putFields {s : State} (h : MemoryInv s) (rd ra : FReg) {r : Record} (htag : r.tag.length ≤ 64)
    (hbody : r.body.length ≤ s.cfg.msgCap) : MemoryInv (s.putFields rd ra r) := by
  have hset : MemoryInv ((s.setF rd r.x1).setF ra r.y1) := h.congr rfl rfl
  exact ((hset.writeBuf .tag nofun htag).writeBuf .msg nofun hbody).congr rfl rfl

theorem CommandWrites.memoryInv {s u : State} {i : Instr} (hu : CommandWrites s i u) (h : MemoryInv s) :
    MemoryInv u := by
  have hlegal := h.1
  cases hu with
  | zeroized => exact h.zeroized
  | keystream bs hlen => exact h.writeBuf .ks nofun hlen
  | record _ _ r hlen => exact (h.writeBuf .record nofun (hlen hlegal)).congr rfl rfl
  | fields rd ra r _ _ htag hbody => exact h.putFields rd ra (htag hlegal) hbody
  | encrypted _ r _ _ hlen => exact (h.writeBuf .record nofun (hlen hlegal)).congr rfl rfl
  | decrypted m hlen => exact (h.writeBuf .msg nofun hlen).congr rfl rfl
  | _ => exact h.congr rfl rfl

theorem FaultWrites.memoryInv {s u : State} {i : Instr} (hu : FaultWrites s i u) (h : MemoryInv s) : MemoryInv u := by
  cases hu with
  | encrypt _ _ _ => exact (h.clearBuf .record).congr rfl rfl
  | decrypt => exact (h.clearBuf .msg).congr rfl rfl
  | _ => exact h.congr rfl rfl

theorem memoryInv_of_commandEnds {s t : State} {i : Instr} (h : MemoryInv s) (ht : CommandEnds s i t) :
    MemoryInv t := by
  cases ht with
  | completes hu => exact (hu.memoryInv h).congr rfl rfl
  | faults hu F => exact (hu.memoryInv h).congr rfl rfl

/-- A byte the host writes is stored only where it lies in a buffer (R71). -/
theorem MemoryInv.busSetByte {s : State} (h : MemoryInv s) (a : Nat) (b : Byte) : MemoryInv (s.busSetByte a b) := by
  have hcfg := s.busSetByte_cfg a b
  cases hb : inBuffer s.cfg a with
  | false => exact h.congr hcfg (State.busSetByte_mem_other b hb)
  | true =>
    obtain ⟨hlegal, hwf, hin⟩ := h
    rw [MemoryInv, hcfg, State.busSetByte_mem_buffered b hb]
    refine ⟨hlegal, Memory.wf_write _ _ _ hwf, fun c hc => ?_⟩
    rcases Memory.mem_write hc with ha | hc
    · rwa [ha]
    · exact hin c hc

theorem MemoryInv.storeWord {s : State} (h : MemoryInv s) (a : Nat) (v : Word) : MemoryInv (s.storeWord a v) :=
  State.storeWord_keeps v (fun _ _ b _ hu => hu.busSetByte _ b) h

theorem memoryInv_of_hostEnds {s t : State} (h : MemoryInv s) (ht : HostEnds s t) : MemoryInv t := by
  cases ht with
  | resets => exact ⟨h.1, rfl, fun c hc => nomatch hc⟩
  | control r v _ hcmd hstatus =>
    obtain ⟨_, _, _, he, -⟩ := CtlReg.write_frame s v hcmd hstatus
    rw [he]
    exact h.congr rfl rfl
  | stores a v _ _ _ _ => exact h.storeWord a v
  | storesParam a v _ _ _ _ => exact (h.storeWord a v).congr rfl rfl
  | _ => exact h.congr rfl rfl

/-- Settles O34: what the commands store fits in its buffer, and the host's bytes are stored in the buffers alone. -/
theorem memoryInvariantIsKept : Obligations.MemoryInvariantIsKept := by
  intro s t
  exact step_keeps (fun s rest h => h.congr rfl rfl) (fun s i t _ => memoryInv_of_commandEnds)
    (fun s ph c _ h => h.congr rfl rfl) (fun s t => memoryInv_of_hostEnds)

/-! ## The words of the control registers, bit by bit (10_state.md R28, R30, R32, R34) -/

theorem getLsbD_eq_iff {n : Nat} (w : BitVec n) (i : Nat) (b : Bool) :
    w.getLsbD i = b ↔ w.toNat / 2 ^ i % 2 = b.toNat := by
  rw [BitVec.getLsbD, Nat.testBit_eq_decide_div_mod_eq]
  cases b <;> simp

theorem bitAt_eq (b : Bool) (i : Nat) : bitAt b i = b.toNat * 2 ^ i := by
  cases b <;> simp [bitAt]

theorem getLsbD_of_lt {n k i : Nat} {w : BitVec n} (h : w.toNat < 2 ^ k) (hi : k ≤ i) : w.getLsbD i = false :=
  Nat.testBit_lt_two_pow (h.trans_le (Nat.pow_le_pow_right (by norm_num) hi))

theorem configBits_configWord {c : Config} (h : c.Legal) : Spec.ConfigBits c (configWord c) := by
  obtain ⟨⟨-, hW, -⟩, ⟨-, hw, -⟩, ⟨-, hn, -⟩, -⟩ := h
  have ht := c.testEn.toNat_le
  have hword : (configWord c).toNat =
      c.fieldBits + c.limbBits * 2 ^ 10 + c.nhash * 2 ^ 16 + c.testEn.toNat * 2 ^ 19 := by
    rw [configWord, bitAt_eq, BitVec.toNat_ofNat]
    omega
  simp only [Spec.ConfigBits, getLsbD_eq_iff, hword]
  refine ⟨?_, ?_, ?_, ?_, ?_⟩ <;> omega

theorem statusBits_statusWord (s : State) : Spec.StatusBits s (statusWord s) := by
  have hbusy := s.status.busy.toNat_le
  have hdone := s.status.done.toNat_le
  have herr := s.status.err.toNat_le
  have hdrop := s.status.drop.toNat_le
  have hpvalid := s.status.pvalid.toNat_le
  have hz := s.flags.z.toNat_le
  have hc := s.flags.c.toNat_le
  have hi := s.flags.i.toNat_le
  have hv := s.flags.v.toNat_le
  have hword : (statusWord s).toNat = s.status.busy.toNat * 2 ^ 0 + s.status.done.toNat * 2 ^ 1 +
      s.status.err.toNat * 2 ^ 2 + s.status.drop.toNat * 2 ^ 3 + s.status.pvalid.toNat * 2 ^ 4 +
      s.flags.z.toNat * 2 ^ 8 + s.flags.c.toNat * 2 ^ 9 + s.flags.i.toNat * 2 ^ 10 + s.flags.v.toNat * 2 ^ 11 := by
    simp only [statusWord, bitAt_eq, BitVec.toNat_ofNat]
    omega
  have hhigh (j : Nat) (hj : 12 ≤ j) : (statusWord s).getLsbD j = false := getLsbD_of_lt (k := 12) (by omega) hj
  have hgap (j : Nat) (hj : 5 ≤ j ∧ j < 8) : (statusWord s).getLsbD j = false := by
    obtain ⟨hlo, hhi⟩ := hj
    rw [getLsbD_eq_iff, hword]
    interval_cases j <;> simp only [Bool.toNat_false] <;> omega
  refine ⟨?_, ?_, ?_, ?_, ?_, ?_, ?_, ?_, ?_, fun j hj => hj.elim (hgap j) (hhigh j)⟩
  all_goals rw [getLsbD_eq_iff, hword]; omega

theorem ctrlBits_ctrlWord (s : State) : Spec.CtrlBits s (ctrlWord s) := by
  have hdone := s.ctrl.ieDone.toNat_le
  have herr := s.ctrl.ieErr.toNat_le
  have hsel := s.ctrl.hsel.isLt
  have hempty := s.ctrl.noempty.toNat_le
  have htest := s.testrng.toNat_le
  have hword : (ctrlWord s).toNat = s.ctrl.ieDone.toNat * 2 ^ 0 + s.ctrl.ieErr.toNat * 2 ^ 1 +
      s.ctrl.hsel.toNat * 2 ^ 4 + s.ctrl.noempty.toNat * 2 ^ 8 + s.testrng.toNat * 2 ^ 12 := by
    simp only [ctrlWord, bitAt_eq, BitVec.toNat_ofNat]
    omega
  refine ⟨?_, ?_, ?_, ?_, ?_, fun j hj => ?_⟩
  · rw [getLsbD_eq_iff, hword]; omega
  · rw [getLsbD_eq_iff, hword]; omega
  · rw [hword]; omega
  · rw [getLsbD_eq_iff, hword]; omega
  · show (ctrlWord s).getLsbD 12 = s.testrng
    rw [getLsbD_eq_iff, hword]; omega
  · rcases Nat.lt_or_ge j 13 with hlt | hge
    · rw [getLsbD_eq_iff, hword]
      interval_cases j <;> simp only [Bool.toNat_false] <;> omega
    · exact getLsbD_of_lt (k := 13) (by omega) hge

/-! ## What a read of a control register returns (10_state.md R29 to R44, 20_memory.md R79) -/

/-- The control registers end at PINV0 (R43). -/
theorem CtlReg.addr_le (r : CtlReg) : r.addr ≤ 0x048 := by
  cases r <;> decide

theorem CtlReg.at_eq_none {a : Nat} (h : 0x04C ≤ a) : CtlReg.at a = none := by
  cases hr : CtlReg.at a with
  | none => rfl
  | some r =>
    have haddr := at_eq_some.mp hr
    have hle := r.addr_le
    omega

namespace State

section
variable (s : State) {addr : Word}

theorem readIdle_control {r : CtlReg} (h : addr = BitVec.ofNat 32 r.addr) : s.readIdle addr.toNat = r.read s := by
  have hr := (CtlReg.eq_ofNat_addr_iff addr r).mp h
  have haddr := CtlReg.at_eq_some.mp hr
  have hle := r.addr_le
  simp only [readIdle, if_pos (show addr.toNat < 0x100 by omega), hr]

theorem readIdle_reserved {a : Nat} (hlo : 0x04C ≤ a) (hhi : a < 0x100) : s.readIdle a = 0 := by
  simp only [readIdle, if_pos hhi, CtlReg.at_eq_none hlo]

theorem readBusy_control {r : CtlReg} (h : addr = BitVec.ofNat 32 r.addr) (hr : r.readableBusy = true) :
    s.readBusy addr.toNat = r.read s := by
  simp only [readBusy, (CtlReg.eq_ofNat_addr_iff addr r).mp h, if_pos hr]

/-- While a command runs a read shows the five registers of R79 and 0 elsewhere. -/
theorem readBusy_other (h : ∀ r : CtlReg, r.readableBusy = true → addr ≠ BitVec.ofNat 32 r.addr) :
    s.readBusy addr.toNat = 0 := by
  simp only [readBusy]
  cases hr : CtlReg.at addr.toNat with
  | none => rfl
  | some r => exact if_neg fun hread => h r hread ((CtlReg.eq_ofNat_addr_iff addr r).mpr hr)

theorem hostAccess_read_refused {n : Nat} (h : addr.toNat % 4 ≠ 0 ∨ n ≠ 4) :
    s.hostAccess (.read addr n) = { s.setDrop with reply := 0 } := by
  have hal : aligned addr n = false := by simpa [aligned, imp_iff_or_not] using h
  simp [hostAccess, hal]

theorem hostAccess_write_refused {n : Nat} (v : Word) (h : addr.toNat % 4 ≠ 0 ∨ n ≠ 4) :
    s.hostAccess (.write addr n v) = s.setDrop := by
  have hal : aligned addr n = false := by simpa [aligned, imp_iff_or_not] using h
  simp [hostAccess, hal]

end
end State

/-- A cursor of the test source reads 0 where TEST_EN = 0 (R42). -/
theorem toNat_read_cursor (testEn : Bool) (x : BitVec 9) :
    (if testEn then x.setWidth 32 else (0 : Word)).toNat = if testEn then x.toNat else 0 := by
  cases testEn with
  | false => rfl
  | true => exact BitVec.toNat_setWidth_of_le (by decide)

/-- Settles O54: a busy read finds one of R79's five registers or 0, a busy write is STATUS's acknowledgement or is
dropped, and what is no aligned word is dropped. -/
theorem busyAndMisalignedAccessesAreRefused : Obligations.BusyAndMisalignedAccessesAreRefused := by
  intro s addr v n rest
  refine ⟨fun ht hb ha => ?_, fun ht hb ha => ?_, fun hbad => ⟨fun ht => ?_, fun ht => ?_⟩⟩
  · refine ⟨{ s with turns := rest, reply := ({ s with turns := rest } : State).readBusy addr.toNat }, ?_, rfl, ?_⟩
    · rw [step_of_host_turn ht, State.hostAccess_read_busy (s := { s with turns := rest }) ha hb]
    have hread (r : CtlReg) (h : addr = BitVec.ofNat 32 r.addr) :=
      State.readBusy_control { s with turns := rest } (r := r) h
    refine ⟨fun h => hread .id h rfl, fun h hlegal => ?_, fun h => ?_, fun h => ?_, fun h => ?_,
      fun hid hconfig hstatus herr hphase => State.readBusy_other _ fun r hr => ?_⟩
    · rw [hread .config h rfl]; exact configBits_configWord hlegal
    · rw [hread .status h rfl]; exact statusBits_statusWord s
    · rw [hread .errcode h rfl]; exact BitVec.toNat_setWidth_of_le (by decide)
    · rw [hread .phase h rfl]; exact BitVec.toNat_setWidth_of_le (by decide)
    · cases r with
      | id => exact hid
      | config => exact hconfig
      | status => exact hstatus
      | errcode => exact herr
      | phase => exact hphase
      | _ => cases hr
  · by_cases hstatus : addr = 0x00C
    · subst hstatus
      refine ⟨({ s with turns := rest } : State).acknowledge v, ?_, fun h => absurd rfl h, fun _ => ⟨rfl, rfl, rfl⟩⟩
      rw [step_of_host_turn ht, State.hostAccess_write_status]
    · refine ⟨({ s with turns := rest } : State).setDrop, ?_, fun _ => rfl, fun h => absurd h hstatus⟩
      have hne : addr.toNat ≠ 0x00C := fun h => hstatus (BitVec.eq_of_toNat_eq h)
      rw [step_of_host_turn ht, State.hostAccess_write_busy (s := { s with turns := rest }) v ha hb hne]
  · refine ⟨{ ({ s with turns := rest } : State).setDrop with reply := 0 }, ?_, rfl⟩
    rw [step_of_host_turn ht, State.hostAccess_read_refused _ hbad]
  · refine ⟨({ s with turns := rest } : State).setDrop, ?_, rfl⟩
    rw [step_of_host_turn ht, State.hostAccess_write_refused _ v hbad]

/-! ## What a read from 0x100 on returns (20_memory.md R71, R72, R75, R76) -/

theorem lane_wordOfBytes (f : Nat → Byte) {j : Nat} (hj : j < 4) :
    Spec.lane (wordOfBytes (f 0) (f 1) (f 2) (f 3)) j = (f j).toNat := by
  have h0 := (f 0).isLt
  have h1 := (f 1).isLt
  have h2 := (f 2).isLt
  have h3 := (f 3).isLt
  simp only [Spec.lane, wordOfBytes, BitVec.toNat_ofNat]
  interval_cases j <;> norm_num <;> omega

/-- A register's bytes do not lie in a reserved range: they are the first FLEN of its slot. -/
theorem not_reserved_of_slot {c : Config} (hF : c.flen ≤ 64) (r : WideReg) {o : Nat} (ho : o < c.flen) :
    ¬Spec.Reserved c (Spec.slotBase r + o) := by
  cases r <;> simp only [Spec.Reserved, Spec.slotBase] <;> omega

/-- A present buffer's bytes do not lie in a reserved range: R6 bounds the capacities by the windows. -/
theorem not_reserved_of_buffered {c : Config} (hs : c.Legal) {a : Nat} (h : Spec.Buffered c a) :
    ¬Spec.Reserved c a := by
  obtain ⟨-, -, -, ⟨-, hmsg⟩, -, hrec⟩ := hs
  obtain ⟨b, hpresent, hlo, hhi⟩ := h
  cases b with
  | rngbuf =>
    have ht := hpresent rfl
    simp only [Buffer.base, Buffer.cap] at hlo hhi
    simp only [Spec.Reserved, ht, reduceCtorEq, and_false, false_or]
    omega
  | _ =>
    simp only [Buffer.base, Buffer.cap] at hlo hhi
    simp only [Spec.Reserved]
    omega

namespace State

theorem busByte_buffered {s : State} {a : Nat} (h : Spec.Buffered s.cfg a) : s.busByte a = s.mem.read a := by
  simp only [busByte, slotReg_of_buffered h, if_pos ((inBuffer_iff _ _).mpr h)]

theorem busByte_d {s : State} {a : Nat} (h : slotReg (a / 64) = some .d) : s.busByte a = 0 := by
  simp [busByte, h, WideReg.readable]

theorem busByte_register {s : State} (hF : s.cfg.flen ≤ 64) {r : WideReg} (hd : r ≠ .d) {a o : Nat}
    (ho : o < s.cfg.flen) (ha : Spec.slotBase r + o = a) :
    (s.busByte a).toNat = Spec.regByte s.cfg.flen (r.get s) o := by
  obtain ⟨hslot, hoff⟩ := (slotReg_eq_some_iff_byte (ho.trans_le hF)).mp ha
  have hread : r.readable = true := by
    cases r with
    | d => exact absurd rfl hd
    | _ => rfl
  simp [busByte, hslot, hoff, hread, ho, byteAt, Spec.regByte]

theorem busByte_reserved {s : State} (hs : s.cfg.Legal) {a : Nat} (h : Spec.Reserved s.cfg a) : s.busByte a = 0 := by
  cases hslot : slotReg (a / 64) with
  | none =>
    have hb : ¬inBuffer s.cfg a = true := fun hb => not_reserved_of_buffered hs ((inBuffer_iff _ _).mp hb) h
    simp only [busByte, hslot, if_neg hb]
  | some r =>
    have ho : ¬a % 64 < s.cfg.flen := fun ho => by
      have hF := Config.flen_le hs
      have ha := (slotReg_eq_some_iff_byte (ho.trans_le hF)).mpr ⟨hslot, rfl⟩
      exact not_reserved_of_slot hF r ho (ha.symm ▸ h)
    simp [busByte, hslot, ho]

theorem readIdle_of_le (s : State) {a : Nat} (h : 0x100 ≤ a) :
    s.readIdle a = wordOfBytes (s.busByte a) (s.busByte (a + 1)) (s.busByte (a + 2)) (s.busByte (a + 3)) := by
  rw [readIdle, if_neg h.not_gt]

theorem lane_readIdle (s : State) {a j : Nat} (h : 0x100 ≤ a) (hj : j < 4) :
    Spec.lane (s.readIdle a) j = (s.busByte (a + j)).toNat := by
  rw [readIdle_of_le s h]
  exact lane_wordOfBytes (fun j => s.busByte (a + j)) hj

theorem readIdle_d (s : State) {a : Nat} (ha : a % 4 = 0) (hlo : 0x300 ≤ a) (hhi : a < 0x340) : s.readIdle a = 0 := by
  have hbyte (j : Nat) (hj : j < 4) : s.busByte (a + j) = 0 := by
    refine busByte_d ?_
    rw [show (a + j) / 64 = 12 by omega]
    rfl
  rw [readIdle_of_le s (by omega), hbyte 1 (by omega), hbyte 2 (by omega), hbyte 3 (by omega)]
  rw [show s.busByte a = 0 from hbyte 0 (by omega)]
  rfl

/-- What an aligned read returns (R76, R79). -/
def readWord (s : State) (a : Nat) : Word := if s.status.busy then s.readBusy a else s.readIdle a

theorem hostAccess_read {s : State} {addr : Word} (ha : addr.toNat % 4 = 0) :
    s.hostAccess (.read addr 4) = { s with reply := s.readWord addr.toNat } := by
  simp [hostAccess, aligned_word ha, readWord]

theorem readWord_idle {s : State} (hb : s.status.busy = false) (a : Nat) : s.readWord a = s.readIdle a := by
  simp [readWord, hb]

theorem readWord_d (s : State) {a : Nat} (ha : a % 4 = 0) (hlo : 0x300 ≤ a) (hhi : a < 0x340) : s.readWord a = 0 := by
  rw [readWord]
  split
  · simp only [readBusy, CtlReg.at_eq_none (show 0x04C ≤ a by omega)]
  · exact s.readIdle_d ha hlo hhi

end State

/-- Settles O55: a read changes the reply alone; from 0x100 on its lanes are the map's bytes, which the reserved ranges
share with no register and no buffer, and below it the reply is the control register's word. -/
theorem readsHaveNoSideEffect : Obligations.ReadsHaveNoSideEffect := by
  intro s addr rest hturns ha
  refine ⟨{ s with turns := rest, reply := ({ s with turns := rest } : State).readWord addr.toNat }, ?_, rfl,
    fun ⟨hlo, hhi⟩ => State.readWord_d _ ha hlo hhi, fun hlegal hb hlo j hj => ?_, fun hb => ?_⟩
  · rw [step_of_host_turn hturns, State.hostAccess_read (s := { s with turns := rest }) ha]
  · have hlane := State.lane_readIdle { s with turns := rest } hlo hj
    rw [State.readWord_idle (s := { s with turns := rest }) hb, hlane]
    refine ⟨fun hres => ?_, fun r o hd ho haddr => ?_, fun hbuf => ?_⟩
    · rw [State.busByte_reserved (s := { s with turns := rest }) hlegal hres]; rfl
    · rw [State.busByte_register (s := { s with turns := rest }) (Config.flen_le hlegal) hd ho haddr.symm]
      exact congrArg (Spec.regByte s.cfg.flen · o) (WideReg.get_congr rfl rfl rfl rfl rfl r)
    · rw [State.busByte_buffered (s := { s with turns := rest }) hbuf]
  · rw [State.readWord_idle (s := { s with turns := rest }) hb]
    have hread (r : CtlReg) (h : addr = BitVec.ofNat 32 r.addr) :=
      State.readIdle_control { s with turns := rest } (r := r) h
    refine ⟨hread .id, fun h hlegal => ?_, hread .cmd, fun h => ?_, fun h => ?_, fun h => ?_, fun h => ?_, fun h => ?_,
      hread .msglen, hread .reclen, hread .outcap, hread .result, fun h => ?_, hread .kslen, fun h => ?_, fun h => ?_,
      fun h => ?_, hread .cof, hread .pinv0, State.readIdle_reserved _⟩
    · rw [hread .config h]; exact configBits_configWord hlegal
    · rw [hread .status h]; exact statusBits_statusWord s
    · rw [hread .errcode h]; exact BitVec.toNat_setWidth_of_le (by decide)
    · rw [hread .ctrl h]; exact ctrlBits_ctrlWord s
    · rw [hread .maxatt h]; exact BitVec.toNat_setWidth_of_le (by decide)
    · rw [hread .att h]; exact BitVec.toNat_setWidth_of_le (by decide)
    · rw [hread .seedlen h]; exact BitVec.toNat_setWidth_of_le (by decide)
    · rw [hread .rnglen h]; exact toNat_read_cursor _ _
    · rw [hread .rngpos h]; exact toNat_read_cursor _ _
    · rw [hread .phase h]; exact BitVec.toNat_setWidth_of_le (by decide)

end Sys2Proof.Machine

namespace Sys2Proof

/-! ## The command a word decodes to, and the word of that command (30_encoding.md R100 to R106) -/

/-- Settles O28: the word of a well-formed command passes its row's checks, and its fields give the operands back. -/
theorem decodeOfEncodeIsTheCommand : Obligations.DecodeOfEncodeIsTheCommand :=
  decode_encode

/-- What the decoder accepts (R103): the opcode names a row, and the word passes that row's checks. -/
theorem decode_eq_ok {w : Word} {i : Instr} :
    decode w = .ok i ↔ ∃ o, Opcode.ofCode (fieldOp w) = some o ∧ o.format.zerosOk w = true ∧
      o.format.pointsOk w = true ∧ o.format.selectorOk w = true ∧ (o.build w).wellFormed = true ∧ o.build w = i := by
  cases h : Opcode.ofCode (fieldOp w) with
  | none => simp [decode, h]
  | some o =>
    simp only [decode, h]
    split_ifs <;> simp_all

theorem Opcode.ofCode_eq_some {b : BitVec 8} {o : Opcode} : Opcode.ofCode b = some o ↔ b = o.code := by
  refine ⟨fun h => ?_, fun h => h ▸ Opcode.ofCode_code o⟩
  have hb := List.find?_some h
  exact (eq_of_beq hb).symm

/-! ### What the checks ask of a register field, and what its operand gives back -/

@[simp] theorem Slot.zeroOk_iff {k : Slot} {v : BitVec 4} : k.zeroOk v = true ↔ (k = .zero → v = 0) := by
  cases k <;> simp [Slot.zeroOk]

@[simp] theorem Slot.pointOk_iff {k : Slot} {v : BitVec 4} : k.pointOk v = true ↔ (k = .preg → v.toNat < 4) := by
  cases k <;> simp [Slot.pointOk]

@[simp] theorem Slot.selOk_iff {k : Slot} {v : BitVec 4} : k.selOk v = true ↔ (k = .sel → v.toNat < 3) := by
  cases k <;> simp [Slot.selOk]

@[simp] theorem ofFreg_fregOf (v : BitVec 4) : ofFreg (fregOf v) = v := by revert v; decide
theorem ofPreg_pregOf {v : BitVec 4} (h : v.toNat < 4) : ofPreg (pregOf v) = v := by revert v; decide
theorem ofCoord_coordOf {v : BitVec 4} (h : v.toNat < 3) : ofCoord (coordOf v) = v := by revert v; decide

/-- A word is the concatenation of its fields as format I cuts them (R101). -/
theorem wordOfImm_fields (w : Word) : wordOfImm (fieldOp w) (fieldRd w) (fieldRa w) (fieldImm w) = w := by
  simp [wordOfImm, fieldOp, fieldRd, fieldRa, fieldImm,
    BitVec.extractLsb'_append_extractLsb'_eq_extractLsb' (show 24 = 20 + 4 from rfl),
    BitVec.extractLsb'_append_extractLsb'_eq_extractLsb' (show 20 = 16 + 4 from rfl),
    BitVec.extractLsb'_append_extractLsb'_eq_extractLsb' (show 16 = 0 + 16 from rfl)]

/-- A word that passes its row's checks is the word of the command built from it: a field the row does not name is zero,
and a field it names comes back from the operand. Only LDI's row has format I. -/
theorem encode_build {o : Opcode} {w : Word} (hop : fieldOp w = o.code) (hz : o.format.zerosOk w = true)
    (hp : o.format.pointsOk w = true) (hs : o.format.selectorOk w = true) : encode (o.build w) = w := by
  simp only [Format.zerosOk, Format.pointsOk, Format.selectorOk, Bool.and_eq_true, Bool.or_eq_true, beq_iff_eq,
    Slot.zeroOk_iff, Slot.pointOk_iff, Slot.selOk_iff] at hz hp hs
  cases o with
  | ldi =>
    conv_rhs => rw [← wordOfImm_fields w, hop]
    simp_all [Opcode.format, Opcode.build, encode]
  | _ =>
    conv_rhs => rw [← wordOf_fields w, hop]
    simp_all [Opcode.format, Opcode.build, encode, ofPreg_pregOf, ofCoord_coordOf]

/-- Settles O29: the checks of R103 leave no bit of the word outside the opcode and the operands. -/
theorem onlyTheCommandsWordDecodes : Obligations.OnlyTheCommandsWordDecodes := by
  intro w i h
  obtain ⟨o, hop, hz, hp, hs, hwf, rfl⟩ := decode_eq_ok.mp h
  exact ⟨encode_build (Opcode.ofCode_eq_some.mp hop) hz hp hs, hwf⟩

/-- Settles O30: R106's words, decoded one by one. -/
theorem exampleWordsOfTheSpecDecode : Obligations.ExampleWordsOfTheSpecDecode := by
  unfold Obligations.ExampleWordsOfTheSpecDecode
  decide

/-! ## The row of the opcode table an opcode stands for (30_encoding.md R104) -/

/-- The bits of a register field that a row's mask covers (R104). -/
def Slot.mask : Slot → BitVec 4
  | .zero => 0xF
  | .freg => 0
  | .preg | .sel => 0xC

/-- A row's mask (R104): the op field, every must-be-zero field, and the upper two bits of every point-register field
and of PGET's selector. -/
def Format.mask (F : Format) : Word :=
  wordOf 0xFF F.rd.mask F.ra.mask (if F.imm then 0 else F.rb.mask) (if F.imm then 0 else 0xFFF)

/-- The two conditions of R103 no mask can say. -/
def Opcode.constraint : Opcode → Spec.RowConstraint
  | .pget => .selNotThree
  | .rdec => .rdNotRa
  | _ => .free

/-- An opcode's row of R104, made from its format. -/
def Opcode.row (o : Opcode) : Spec.TableRow := ⟨wordOf o.code 0 0 0 0, o.format.mask, o.constraint⟩

/-- The table is the list of the opcodes' rows. -/
theorem opcodeTable_eq : Spec.opcodeTable = Opcode.all.map Opcode.row := by decide

theorem Opcode.mem_all (o : Opcode) : o ∈ Opcode.all := by cases o <;> decide

theorem exists_row_iff {p : Spec.TableRow → Prop} : (∃ r ∈ Spec.opcodeTable, p r) ↔ ∃ o : Opcode, p o.row := by
  simp [opcodeTable_eq, Opcode.mem_all]

theorem wordOf_inj {op op' : BitVec 8} {rd ra rb rd' ra' rb' : BitVec 4} {z z' : BitVec 12} :
    wordOf op rd ra rb z = wordOf op' rd' ra' rb' z' ↔ op = op' ∧ rd = rd' ∧ ra = ra' ∧ rb = rb' ∧ z = z' := by
  refine ⟨fun h => ⟨?_, ?_, ?_, ?_, ?_⟩, by rintro ⟨rfl, rfl, rfl, rfl, rfl⟩; rfl⟩
  · simpa using congrArg fieldOp h
  · simpa using congrArg fieldRd h
  · simpa using congrArg fieldRa h
  · simpa using congrArg fieldRb h
  · simpa using congrArg fieldZ h

/-- A register field under its mask is zero when it passes R103(2) and (3), but for the selector's value 3. -/
theorem Slot.and_mask_eq_zero {k : Slot} {v : BitVec 4} :
    v &&& k.mask = 0 ↔ (k = .zero → v = 0) ∧ (k = .preg → v.toNat < 4) ∧ (k = .sel → v.toNat < 4) := by
  cases k <;> revert v <;> decide

/-- A word under a row's mask is the row's pattern when its opcode is, and its fields under their masks are zero. -/
theorem Format.and_mask_eq_wordOf {F : Format} {w : Word} {op : BitVec 8} :
    w &&& F.mask = wordOf op 0 0 0 0 ↔ fieldOp w = op ∧ fieldRd w &&& F.rd.mask = 0 ∧ fieldRa w &&& F.ra.mask = 0 ∧
      (F.imm = true ∨ fieldRb w &&& F.rb.mask = 0 ∧ fieldZ w = 0) := by
  have hop : fieldOp w &&& 0xFF = fieldOp w := BitVec.and_allOnes
  have hz : fieldZ w &&& 0xFFF = fieldZ w := BitVec.and_allOnes
  conv_lhs => rw [← wordOf_fields w, Format.mask, wordOf_and, wordOf_inj, hop]
  cases F.imm with
  | false => simp only [Bool.false_eq_true, if_false, hz, false_or]
  | true => simp

/-- A register field of the word, as a row's condition reads it. -/
theorem toNat_shift_and (w : Word) (n : Nat) : (w >>> n &&& 15#32).toNat = (w.extractLsb' n 4).toNat := by
  simpa using Nat.and_two_pow_sub_one_eq_mod (w.toNat >>> n) 4

/-- R104 and R103 agree: a word selects an opcode's row exactly when it passes the decoder's checks for that opcode. The
mask says all of them but the selector's bound, of which it leaves the value 3, and RDEC's two destinations. -/
theorem Opcode.row_selects {o : Opcode} {w : Word} :
    o.row.selects w = true ↔ fieldOp w = o.code ∧ o.format.zerosOk w = true ∧ o.format.pointsOk w = true ∧
      o.format.selectorOk w = true ∧ (o.build w).wellFormed = true := by
  simp only [Opcode.row, Spec.TableRow.selects, Bool.and_eq_true, Bool.or_eq_true, beq_iff_eq,
    Format.and_mask_eq_wordOf, Slot.and_mask_eq_zero, Format.zerosOk, Format.pointsOk, Format.selectorOk, Slot.zeroOk_iff, Slot.pointOk_iff,
    Slot.selOk_iff]
  cases o with
  | pget =>
    have hsel : w >>> 12 &&& 15#32 = 3#32 ↔ (fieldRb w).toNat = 3 := by
      rw [← BitVec.toNat_inj, toNat_shift_and]
      rfl
    have hlt : (fieldRb w).toNat < 3 ↔ (fieldRb w).toNat < 4 ∧ (fieldRb w).toNat ≠ 3 := by omega
    simp [Opcode.format, Opcode.constraint, Opcode.build, Instr.wellFormed, hsel, hlt, and_assoc, and_left_comm,
      and_comm]
  | rdec =>
    have heq : w >>> 20 &&& 15#32 = w >>> 16 &&& 15#32 ↔ fregOf (fieldRd w) = fregOf (fieldRa w) := by
      rw [← BitVec.toNat_inj, toNat_shift_and, toNat_shift_and, Fin.ext_iff]
      rfl
    simp [Opcode.format, Opcode.constraint, Opcode.build, Instr.wellFormed, heq, and_assoc]
  | _ =>
    simp [Opcode.format, Opcode.constraint, Opcode.build, Instr.wellFormed, and_assoc, and_left_comm, and_comm]

theorem decodes_iff_selects (w : Word) :
    (∃ i, decode w = .ok i) ↔ ∃ r ∈ Spec.opcodeTable, r.selects w = true := by
  simp only [decode_eq_ok, exists_row_iff, Opcode.row_selects, Opcode.ofCode_eq_some]
  exact ⟨fun ⟨_, o, hop, hz, hp, hs, hwf, _⟩ => ⟨o, hop, hz, hp, hs, hwf⟩,
    fun ⟨o, hop, hz, hp, hs, hwf⟩ => ⟨_, o, hop, hz, hp, hs, hwf, rfl⟩⟩

/-- R105: the opcodes of no row. -/
theorem unassigned_opcodes :
    ((List.range 256).filter fun b => (Opcode.ofCode (BitVec.ofNat 8 b)).isNone).length = 219 := by decide +kernel

end Sys2Proof

namespace Sys2Proof.Machine

/-! ## What a fault leaves (60_exceptions.md R262), and the illegal word (30_encoding.md R105) -/

theorem endsFaulted_raise (F : CmdFault) (s : State) : EndsFaulted F s (s.raise F) :=
  ⟨⟨rfl, rfl, rfl, rfl, rfl, rfl, rfl, rfl⟩, rfl, rfl⟩

theorem faultsWith_raise (F : CmdFault) (s : State) : FaultsWith F s (s.raise F) :=
  ⟨endsFaulted_raise F s, ⟨rfl, rfl, rfl, rfl⟩, rfl, rfl, rfl, rfl, rfl, rfl, fun _ => rfl⟩

theorem coreMove_of_illegal {s : State} {e : DecodeError} (hb : s.status.busy = true)
    (hd : decode s.fetch = .error e) : coreMove s = .next (s.raise .illegalCommand) := by
  simp [coreMove, runCommand, hb, hd]

/-- Settles O31: an opcode's row selects what its checks accept, and a core's move at an illegal word raises
IllegalCommand at once. -/
theorem illegalWordsOnlyFault : Obligations.IllegalWordsOnlyFault := by
  refine ⟨decodes_iff_selects, unassigned_opcodes, fun s e hb hd => ⟨fun ht => ?_, fun rest ht => ?_⟩⟩
  · exact ⟨_, (step_of_no_turn ht).trans (coreMove_of_illegal hb hd), faultsWith_raise _ s⟩
  · exact ⟨_, (step_of_core_turn ht).trans (coreMove_of_illegal (s := { s with turns := rest }) hb hd),
      faultsWith_raise _ _⟩

end Sys2Proof.Machine

namespace Sys2Proof.Machine

/-! ## The shared checks (30_encoding.md R108) -/

section
variable {s : State}

theorem firstFault_needParams_fails (hp : s.status.pvalid = false) (l : List (Bool × CmdFault)) :
    firstFault (needParams s :: l) = some .paramsNotReady := by
  simp [needParams, hp, firstFault]

theorem firstFault_needHash_fails (hh : s.hsel ≥ s.cfg.nhash) (l : List (Bool × CmdFault)) :
    firstFault (needHash s :: l) = some .badParam := by
  simp [needHash, hh, firstFault]

theorem endsFaulted_guarded {k : State} {l : List (Bool × CmdFault)} {F : CmdFault} (h : firstFault l = some F) :
    EndsFaulted F s (s.guarded l k) := by
  rw [State.guarded_of_fault h]
  exact endsFaulted_raise F s

theorem endsFaulted_encryptWith (P : Ports) {F : CmdFault} (h : firstFault (encryptChecks s) = some F) :
    EndsFaulted F s (encryptWith P s) := by
  simp only [encryptWith, h]
  exact ⟨⟨rfl, rfl, rfl, rfl, rfl, rfl, rfl, rfl⟩, rfl, rfl⟩

theorem endsFaulted_decryptWith (P : Ports) {F : CmdFault} (h : firstFault (decryptChecks s) = some F) :
    EndsFaulted F s (decryptWith P s) := by
  simp only [decryptWith, decryptResult, decryptCheck, h]
  exact ⟨⟨rfl, rfl, rfl, rfl, rfl, rfl, rfl, rfl⟩, rfl, rfl⟩

/-- R108(a): PVALID is the first check of every command that needs it. -/
theorem exec_of_not_pvalid {i : Instr} (hi : needsPvalid i = true) (hp : s.status.pvalid = false) :
    ∃ t, exec i s = .next t ∧ EndsFaulted .paramsNotReady s t := by
  have hfirst := firstFault_needParams_fails hp
  cases i with
  | modadd | modsub | modmul | modsqr | montmul | tomont | frommont | modred | modinv
  | pdbl | padd | paff | peq | onc | pmul => exact ⟨_, rfl, endsFaulted_guarded (hfirst _)⟩
  | encrypt => exact ⟨_, rfl, endsFaulted_encryptWith .free (hfirst _)⟩
  | decrypt => exact ⟨_, rfl, endsFaulted_decryptWith .free (hfirst _)⟩
  | _ => exact absurd hi Bool.false_ne_true

/-- R108(b): the hash number is the first check of a command that needs a hash, or comes directly after PVALID. A
well-formed RDEC has passed the decoder's check of its two destinations. -/
theorem exec_of_not_hash {i : Instr} (hwf : i.wellFormed = true) (hi : needsHash i = true)
    (hp : needsPvalid i = true → s.status.pvalid = true) (hh : s.hsel ≥ s.cfg.nhash) :
    ∃ t, exec i s = .next t ∧ EndsFaulted .badParam s t := by
  have hfirst := firstFault_needHash_fails hh
  have hsecond (hp : s.status.pvalid = true) (l) : firstFault (needParams s :: needHash s :: l) = some .badParam := by
    rw [needParams, hp]
    exact hfirst l
  cases i with
  | kdf | renc | ctsize | ptsize => exact ⟨_, rfl, endsFaulted_guarded (hfirst _)⟩
  | rdec rd ra =>
    have hne : (rd == ra) = false := by simpa [Instr.wellFormed] using hwf
    refine ⟨_, rfl, endsFaulted_guarded ?_⟩
    rw [hne]
    exact hfirst _
  | encrypt => exact ⟨_, rfl, endsFaulted_encryptWith .free (hsecond (hp rfl) _)⟩
  | decrypt => exact ⟨_, rfl, endsFaulted_decryptWith .free (hsecond (hp rfl) _)⟩
  | _ => exact absurd hi Bool.false_ne_true

end

/-! ## ERR and ERRCODE hold a listed fault, or what they held (60_exceptions.md R260, R262, R263) -/

/-- ERR and ERRCODE are as before, or report a fault of the list. -/
def Reports (L : List CmdFault) (s t : State) : Prop :=
  t.status.err = s.status.err ∧ t.regs.errcode = s.regs.errcode ∨
    ∃ F ∈ L, t.status.err = true ∧ t.regs.errcode = F.code

section
variable {L : List CmdFault} {s : State}

theorem Reports.complete {u : State} (herr : u.status.err = s.status.err) (hcode : u.regs.errcode = s.regs.errcode) :
    Reports L s u.complete := .inl ⟨herr, hcode⟩

theorem Reports.raise {F : CmdFault} (hF : F ∈ L) (u : State) : Reports L s (u.raise F) := .inr ⟨F, hF, rfl, rfl⟩

theorem Reports.guarded {k : State} {l : List (Bool × CmdFault)} (hl : ∀ c ∈ l, c.2 ∈ L) (hk : Reports L s k) :
    Reports L s (s.guarded l k) := by
  rcases s.guarded_cases k l with ⟨-, he⟩ | ⟨F, -, hF, he⟩
  · rwa [he]
  · rw [he]; exact .raise (hl _ hF) s

end

/-- The retry loop of R235 ends with a usable scalar or one of two faults. -/
theorem encryptLoop_error {P : Ports} {s : State} {L fuel att : Nat} {c : Cursor} {F : CmdFault}
    (h : (encryptLoop P s L fuel att c).result = .error F) : F = .randomnessExhausted ∨ F = .pointAtInfinity := by
  induction fuel generalizing att c with
  | zero => exact .inl (Except.error.inj h).symm
  | succ fuel ih =>
    simp only [encryptLoop] at h
    split at h
    · exact .inl (Except.error.inj h).symm
    split at h
    · exact ih h
    split at h
    · exact .inr (Except.error.inj h).symm
    · exact ih h
    · cases h

theorem encryptChecks_listed (s : State) : ∀ c ∈ encryptChecks s, c.2 ∈ mayRaise .encrypt := by
  simp [encryptChecks, needParams, needHash, needMsgLen, State.needKdfLen, mayRaise]

theorem encryptWith_reports (P : Ports) (s : State) : Reports (mayRaise .encrypt) s (encryptWith P s) := by
  simp only [encryptWith]
  split
  · next F hF => exact .raise (encryptChecks_listed s _ (firstFault_mem hF)) _
  split
  · next F hF =>
    refine .raise ?_ _
    rcases encryptLoop_error hF with rfl | rfl <;> decide
  · exact .complete (by simp) (by simp)

theorem decryptChecks_listed (s : State) : ∀ c ∈ decryptChecks s, c.2 ∈ mayRaise .decrypt := by
  simp [decryptChecks, needParams, needHash, needRecLen, mayRaise]

theorem decryptLenChecks_listed (s : State) (L : Nat) : ∀ c ∈ decryptLenChecks s L, c.2 ∈ mayRaise .decrypt := by
  simp [decryptLenChecks, State.needKdfLen, mayRaise]

theorem decryptCheck_error {s : State} {F : CmdFault} (h : decryptCheck s = .error F) : F ∈ mayRaise .decrypt := by
  simp only [decryptCheck] at h
  split at h
  · next hF => exact Except.error.inj h ▸ decryptChecks_listed s _ (firstFault_mem hF)
  split at h
  · rw [← Except.error.inj h]; decide
  split at h
  · next hF => exact Except.error.inj h ▸ decryptLenChecks_listed s _ _ (firstFault_mem hF)
  · cases h

theorem decryptBody_error {P : Ports} {s : State} {L : Nat} {r : Record} {F : CmdFault}
    (h : decryptBody P s L r = .error F) : F = .authenticationFailed := by
  simp only [decryptBody] at h
  split_ifs at h <;> exact (Except.error.inj h).symm

theorem decryptWith_reports (P : Ports) (s : State) : Reports (mayRaise .decrypt) s (decryptWith P s) := by
  simp only [decryptWith]
  split
  · next F hF =>
    refine .raise ?_ _
    simp only [decryptResult] at hF
    split at hF
    · next hc => exact Except.error.inj hF ▸ decryptCheck_error hc
    split at hF
    · rw [← Except.error.inj hF]; decide
    · rw [decryptBody_error hF]; decide
  · exact .complete rfl rfl

/-- R263: a well-formed command reports a fault of its list, or none. -/
theorem exec_reports {i : Instr} (hwf : i.wellFormed = true) (s : State) :
    ∃ t, exec i s = .next t ∧ Reports (mayRaise i) s t := by
  cases i with
  | nop | zeroize | cmp | mov | ldi | pisinf | psetinf | pldg | pldq | pmov | pset | pget =>
    exact ⟨_, rfl, .complete rfl rfl⟩
  | setup =>
    refine ⟨_, rfl, ?_⟩
    split
    · exact .raise (by decide) _
    · exact .complete rfl rfl
  | modadd | modsub | modmul | modsqr | montmul | tomont | frommont | modred | modinv =>
    exact ⟨_, rfl, .guarded (by simp [needParams, needField, mayRaise]) (.complete rfl rfl)⟩
  | pdbl | padd | paff | peq | onc | pmul =>
    exact ⟨_, rfl, .guarded (by simp [needParams, needPoint, mayRaise]) (.complete rfl rfl)⟩
  | schk => exact ⟨_, rfl, .guarded (by simp [mayRaise]) (.complete rfl rfl)⟩
  | kdf =>
    exact ⟨_, rfl, .guarded (by simp [kdfChecks, needHash, State.needKdfLen, mayRaise]) (.complete rfl rfl)⟩
  | renc => exact ⟨_, rfl, .guarded (by simp [needHash, needMsgLen, mayRaise]) (.complete (by simp) (by simp))⟩
  | ctsize => exact ⟨_, rfl, .guarded (by simp [needHash, needMsgLen, mayRaise]) (.complete rfl rfl)⟩
  | ptsize =>
    refine ⟨_, rfl, .guarded (by simp [needHash, needRecLen, mayRaise]) ?_⟩
    split
    · exact .raise (by decide) _
    · exact .complete rfl rfl
  | rdec rd ra =>
    have hne : (rd == ra) = false := by simpa [Instr.wellFormed] using hwf
    refine ⟨_, rfl, ?_⟩
    rw [hne, State.guarded, firstFault_cons_good]
    refine .guarded (by simp [needHash, needRecLen, mayRaise]) ?_
    split
    · exact .raise (by simp [mayRaise]) _
    split
    · exact .raise (by simp [mayRaise]) _
    · exact .complete rfl rfl
  | encrypt => exact ⟨_, rfl, encryptWith_reports .free s⟩
  | decrypt => exact ⟨_, rfl, decryptWith_reports .free s⟩
  | draw =>
    refine ⟨_, rfl, ?_⟩
    simp only [drawWith]
    split
    · exact .raise (by simp [mayRaise]) _
    · exact .complete rfl rfl

/-- No other fault has the code of ParamsNotReady (R261). -/
theorem CmdFault.eq_paramsNotReady {F : CmdFault} (h : F.code = CmdFault.paramsNotReady.code) :
    F = .paramsNotReady := by
  revert h
  cases F <;> decide

theorem paramsNotReady_not_listed {i : Instr} (hi : needsPvalid i = false) : .paramsNotReady ∉ mayRaise i := by
  cases i <;> simp_all [needsPvalid, mayRaise]

/-- Settles O59: the shared checks head each command's list of checks, and a command that does not need PVALID has no
ParamsNotReady in its list of faults. -/
theorem sharedPreconditionsComeFirst : Obligations.SharedPreconditionsComeFirst := by
  intro i s hwf herr
  refine ⟨exec_of_not_pvalid, exec_of_not_hash hwf, fun hi => ?_⟩
  obtain ⟨t, ht, hreports⟩ := exec_reports hwf s
  refine ⟨t, ht, fun ⟨_, hset, hcode⟩ => ?_⟩
  rcases hreports with ⟨hsame, -⟩ | ⟨F, hF, -, hF'⟩
  · rw [hset, herr] at hsame
    cases hsame
  · obtain rfl := CmdFault.eq_paramsNotReady (hF'.symm.trans hcode)
    exact paramsNotReady_not_listed hi hF

end Sys2Proof.Machine

namespace Sys2Proof.Machine

/-! ## The system commands (40_setup.md R120, R121, R123) -/

/-- Completion ends the command (R260), whatever it has written to the registers and buffers before. -/
theorem endsIdle_complete {s u : State} (hdrop : u.status.drop = s.status.drop) (hcfg : u.cfg = s.cfg)
    (hturns : u.turns = s.turns) (hreply : u.reply = s.reply) : EndsIdle s u.complete :=
  ⟨rfl, rfl, hdrop, rfl, rfl, hcfg, hturns, hreply⟩

theorem endsOk_complete {s u : State} (hstatus : u.status = s.status) (hcfg : u.cfg = s.cfg)
    (hturns : u.turns = s.turns) (hreply : u.reply = s.reply) : EndsOk s u.complete :=
  ⟨endsIdle_complete (by rw [hstatus]) hcfg hturns hreply, by simp [hstatus], by simp [hstatus]⟩

theorem exec_nop (s : State) : exec .nop s = .next s.complete := rfl

theorem exec_zeroize (s : State) : exec .zeroize s = .next s.zeroized.complete := rfl

theorem exec_setup (s : State) : exec .setup s = .next (if setupRejects s.cfg.fieldBits s.params then
    s.clearPvalid.raise .badParam else s.storeConsts.complete) := rfl

/-- Settles O1: NOP is completion alone. -/
theorem nopOnlyCompletes : Obligations.NopOnlyCompletes := by
  refine ⟨by decide, fun s => ⟨s.complete, exec_nop s, endsOk_complete rfl rfl rfl rfl, ?_⟩⟩
  exact ⟨⟨rfl, rfl, rfl, rfl⟩, rfl, rfl, rfl, rfl, rfl, fun _ => rfl⟩

/-! ### SETUP (R121) -/

theorem setupRejects_iff {W : Nat} {r : Params} :
    setupRejects W r = true ↔
      r.p % 2 = 0 ∨ r.p < 2 ^ (W - 1) ∨ r.a ≥ r.p ∨ r.b ≥ r.p ∨ r.gx ≥ r.p ∨ r.gy ≥ r.p := by
  simp only [setupRejects, Bool.or_eq_true, beq_iff_eq, decide_eq_true_eq, or_assoc]

theorem exec_setup_of_rejects {s : State} (h : setupRejects s.cfg.fieldBits s.params = true) :
    exec .setup s = .next (s.clearPvalid.raise .badParam) := by
  rw [exec_setup, if_pos h]

theorem exec_setup_of_accepts {s : State} (h : setupRejects s.cfg.fieldBits s.params = false) :
    exec .setup s = .next s.storeConsts.complete := by
  rw [exec_setup, h, if_neg Bool.false_ne_true]

/-- Without PVALID, R23's invariant asks nothing of the constants: the widths are enough. -/
theorem numbersInv_clearPvalid {s : State} (hs : s.cfg.Legal) (hw : WidthInv s) : NumbersInv s.clearPvalid := by
  obtain ⟨hget, hpinv⟩ := hw
  exact ⟨hs, ⟨fun r => (WideReg.get_congr rfl rfl rfl rfl rfl r).trans_lt (hget r), hpinv⟩, nofun⟩

/-- SETUP ends in R23's invariant, whatever the constants and PVALID were. -/
theorem numbersInv_storeConsts {s : State} (hs : s.cfg.Legal) (hw : WidthInv s)
    (hok : setupRejects s.cfg.fieldBits s.params = false) : NumbersInv s.storeConsts :=
  (numbersInv_clearPvalid hs hw).storeConsts hok

/-- Settles O2: a failing check ends SETUP in its fault; when none fails, R23's invariant of the state SETUP leaves says
what its constants are. -/
theorem setupChecksAndComputesConstants : Obligations.SetupChecksAndComputesConstants := by
  refine ⟨by decide, fun s => ⟨fun hbad => ?_, fun hs hw hodd hfull ha hb hgx hgy => ?_⟩⟩
  · exact ⟨_, exec_setup_of_rejects (setupRejects_iff.mpr hbad), endsFaulted_raise .badParam s.clearPvalid, rfl,
      ⟨rfl, rfl, rfl, rfl⟩, rfl, rfl, rfl, rfl, rfl, fun _ => rfl⟩
  · have hok : setupRejects s.cfg.fieldBits s.params = false := by
      rw [← Bool.not_eq_true, setupRejects_iff]
      omega
    obtain ⟨-, ⟨hget, hpinvlt⟩, hparams⟩ := numbersInv_storeConsts hs hw hok
    obtain ⟨-, -, hrr, hmu, hpinv⟩ := hparams rfl
    exact ⟨_, exec_setup_of_accepts hok, endsIdle_complete rfl rfl rfl rfl, rfl, rfl, hrr, hmu, hget .mu, hpinv,
      hpinvlt, rfl, rfl, rfl, rfl, rfl, rfl, rfl, rfl, fun _ => rfl⟩

/-! ### ZEROIZE (R123) -/

theorem State.getF_zeroized (s : State) (r : FReg) : s.zeroized.getF r = 0 := get_replicate_zero r

theorem State.getPt_zeroized (s : State) (j : PReg) : s.zeroized.getPt j = ⟨0, 0, 0⟩ := get_replicate_inf j

/-- The bytes ZEROIZE clears are those of MSG, KS, SEED, TAG and RNGBUF. -/
theorem State.read_zeroized (s : State) (a : Nat) : s.zeroized.mem.read a =
    if (0x1000000 ≤ a ∧ a < 0x1000000 + s.cfg.msgCap) ∨ (0x2000000 ≤ a ∧ a < 0x2000000 + s.cfg.msgCap) ∨
      (0xC80 ≤ a ∧ a < 0xD00) ∨ (0xC00 ≤ a ∧ a < 0xC40) ∨ (0xD00 ≤ a ∧ a < 0xE00)
    then 0 else s.mem.read a := by
  simp only [State.zeroized, State.clearBuf_mem, Memory.read_clear, ← ite_or]
  refine if_congr ?_ rfl rfl
  simp only [Buffer.base, Buffer.cap, State.clearBuf_cfg, State.clearRegs]
  omega

/-- Settles O3: ZEROIZE completes after clearing the registers of `State.clearRegs` and five buffers. -/
theorem zeroizeClearsSecretsOnly : Obligations.ZeroizeClearsSecretsOnly := by
  refine ⟨by decide, fun s => ⟨s.zeroized.complete, exec_zeroize s, endsOk_complete rfl rfl rfl rfl, ?_⟩⟩
  exact ⟨rfl, s.getF_zeroized, s.getPt_zeroized, rfl, rfl, rfl, rfl, rfl, rfl, s.read_zeroized⟩

end Sys2Proof.Machine

namespace Sys2Proof.Machine

/-! ## The datapaths compute the exact residues (41_modarith.md R135, R141, R143) -/

/-! ### The Montgomery loop (R135) -/

/-- R135's division by 2^w is exact: the quotient digit m is chosen so that 2^w divides T + m · p. -/
theorem two_pow_dvd_add_quotientDigit_mul {w p pinv : Nat} (hpinv : (p * pinv + 1) % 2 ^ w = 0) (t : Nat) :
    2 ^ w ∣ t + t % 2 ^ w * pinv % 2 ^ w * p := by
  have hm : t % 2 ^ w * pinv % 2 ^ w ≡ t * pinv [MOD 2 ^ w] :=
    (Nat.mod_modEq _ _).trans ((Nat.mod_modEq t _).mul_right pinv)
  have hsum : t + t % 2 ^ w * pinv % 2 ^ w * p ≡ t * (p * pinv + 1) [MOD 2 ^ w] := by
    convert (hm.mul_right p).add_left t using 1
    ring
  have hzero : t * (p * pinv + 1) ≡ 0 [MOD 2 ^ w] :=
    Nat.modEq_zero_iff_dvd.mpr (Dvd.dvd.mul_left (Nat.dvd_of_mod_eq_zero hpinv) t)
  exact Nat.modEq_zero_iff_dvd.mp (hsum.trans hzero)

theorem mod_two_pow_succ_digit (w a n : Nat) :
    a % 2 ^ (w * (n + 1)) = a % 2 ^ (w * n) + 2 ^ (w * n) * digit w a n := by
  rw [digit, Nat.mul_succ, Nat.pow_add, Nat.mod_mul]

/-- After `n` digits the accumulator stands for the product of those digits with b, scaled by 2^(−w n). -/
theorem montAcc_mul_pow_modEq {w p pinv : Nat} (hpinv : (p * pinv + 1) % 2 ^ w = 0) (a b n : Nat) :
    montAcc w p pinv a b n * 2 ^ (w * n) ≡ a % 2 ^ (w * n) * b [MOD p] := by
  induction n with
  | zero => simp [montAcc, Nat.mod_one, Nat.ModEq.refl]
  | succ n ih =>
    rw [mod_two_pow_succ_digit]
    simp only [montAcc]
    generalize montAcc w p pinv a b n = t at ih ⊢
    have hdvd := two_pow_dvd_add_quotientDigit_mul hpinv (t + digit w a n * b)
    generalize (t + digit w a n * b) % 2 ^ w * pinv % 2 ^ w = m at hdvd ⊢
    calc (t + digit w a n * b + m * p) / 2 ^ w * 2 ^ (w * (n + 1))
        = (t + digit w a n * b + m * p) * 2 ^ (w * n) := by
          rw [Nat.mul_succ, Nat.add_comm (w * n), Nat.pow_add, ← Nat.mul_assoc, Nat.div_mul_cancel hdvd]
      _ = t * 2 ^ (w * n) + 2 ^ (w * n) * digit w a n * b + m * 2 ^ (w * n) * p := by ring
      _ ≡ t * 2 ^ (w * n) + 2 ^ (w * n) * digit w a n * b [MOD p] := Nat.add_mul_modulus_modEq_iff.mpr .rfl
      _ ≡ a % 2 ^ (w * n) * b + 2 ^ (w * n) * digit w a n * b [MOD p] := ih.add_right _
      _ = (a % 2 ^ (w * n) + 2 ^ (w * n) * digit w a n) * b := by ring

theorem montMul_modEq_montAcc (w n p pinv a b : Nat) :
    montMul w n p pinv a b ≡ montAcc w p pinv a b n [MOD p] := by
  simp only [montMul]
  split
  · next h => exact (Nat.sub_modulus_modEq_iff h).mpr .rfl
  · exact .rfl

/-- MontMul is multiplication by 2^(−w n): R135's result, with R on the other side. -/
theorem montMul_mul_pow_modEq {w n p pinv a : Nat} (hpinv : (p * pinv + 1) % 2 ^ w = 0) (ha : a < 2 ^ (w * n))
    (b : Nat) : montMul w n p pinv a b * 2 ^ (w * n) ≡ a * b [MOD p] := by
  have hacc := montAcc_mul_pow_modEq hpinv a b n
  rw [Nat.mod_eq_of_lt ha] at hacc
  exact ((montMul_modEq_montAcc w n p pinv a b).mul_right _).trans hacc

/-- Settles O39: the loop invariant holds after every digit, and the final subtraction changes no residue. -/
theorem montgomeryLoopReduces : Obligations.MontgomeryLoopReduces := by
  intro w n p pinv a b _ hp hpinv ha hb hpow
  exact ⟨montMul_lt hb w n pinv a, montMul_mul_pow_modEq hpinv (ha.trans hpow) b, montAcc_lt hp w pinv a⟩

/-! ### Barrett reduction (R141) -/

/-- Settles O40: the bounds on q3 and the two subtractions they call for. -/
theorem barrettReduceIsExact : Obligations.BarrettReduceIsExact := by
  intro W p mu x hW hlo hhi hmu hx
  refine ⟨barrettReduce_eq_mod hW hlo.le hhi hmu hx, ?_⟩
  obtain ⟨n, rfl⟩ : ∃ n, W = n + 1 := ⟨W - 1, by omega⟩
  rw [Nat.add_sub_cancel] at hlo
  have hp : 0 < p := by omega
  have hsq : 2 ^ (2 * (n + 1)) = 4 * (2 ^ n) ^ 2 := by ring
  have hdiv : 2 ^ (n + 1 + 1) = 4 * 2 ^ n := by ring
  rw [hsq] at hmu hx
  obtain ⟨hle, hlt⟩ := barrett_quotient_bounds (Nat.two_pow_pos n) hlo.le hx
  simp only [Nat.add_sub_cancel, hmu, hdiv]
  refine ⟨(Nat.le_div_iff_mul_le hp).mpr hle, Nat.le_of_lt_succ ((Nat.div_lt_iff_lt_mul hp).mpr ?_)⟩
  rwa [Nat.succ_mul, Nat.add_mul, Nat.add_assoc, ← Nat.succ_mul]

/-! ### The field inverse (R143) -/

/-- One turn of R143's loop squares, and multiplies by a when the exponent's bit is set. -/
theorem fermatStep_modEq (p a r : Nat) (bit : Bool) :
    (if bit then mulP p (mulP p r r) a else mulP p r r) ≡ r ^ 2 * a ^ bit.toNat [MOD p] := by
  have hsq : mulP p r r ≡ r ^ 2 [MOD p] := by rw [Nat.pow_two]; exact Nat.mod_modEq _ _
  cases bit with
  | false => simpa using hsq
  | true =>
    rw [if_pos rfl, Bool.toNat_true, Nat.pow_one]
    exact (Nat.mod_modEq _ _).trans (hsq.mul_right a)

/-- Square and multiply over the low `n` bits of the exponent. -/
theorem fermatLoop_modEq (p a e n r : Nat) : fermatLoop p a e n r ≡ r ^ 2 ^ n * a ^ (e % 2 ^ n) [MOD p] := by
  induction n generalizing r with
  | zero => simp [fermatLoop, Nat.mod_one, Nat.ModEq.refl]
  | succ n ih =>
    have hstep := fermatStep_modEq p a r (e.testBit n)
    calc fermatLoop p a e (n + 1) r ≡ _ ^ 2 ^ n * a ^ (e % 2 ^ n) [MOD p] := ih _
      _ ≡ (r ^ 2 * a ^ (e.testBit n).toNat) ^ 2 ^ n * a ^ (e % 2 ^ n) [MOD p] := (hstep.pow _).mul_right _
      _ = r ^ 2 ^ (n + 1) * a ^ (e % 2 ^ (n + 1)) := by rw [Nat.mod_pow_succ, ← Nat.toNat_testBit]; ring

/-- R143 for every modulus, prime or not. -/
theorem fermatInv_eq {W p : Nat} (hp : 1 < p) (hW : p < 2 ^ W) (a : Nat) : fermatInv W p a = a ^ (p - 2) % p := by
  have h := fermatLoop_modEq p a (p - 2) W 1
  rw [Nat.one_pow, Nat.one_mul, Nat.mod_eq_of_lt (by omega : p - 2 < 2 ^ W)] at h
  rw [← Nat.mod_eq_of_lt (fermatInv_lt hp W a)]
  exact h

/-- Fermat's little theorem, as R143 uses it. -/
theorem mul_pow_sub_two_mod {p a : Nat} (hp : p.Prime) (ha : 1 ≤ a) (hap : a < p) :
    a * (a ^ (p - 2) % p) % p = 1 := by
  have hcop : Nat.Coprime a p := (Nat.coprime_of_lt_prime (Nat.ne_of_gt ha) hap hp).symm
  have hfermat := Nat.ModEq.pow_totient hcop
  have hexp : a * a ^ (p - 2) = a ^ (p - 1) := by
    rw [← Nat.pow_succ', show (p - 2).succ = p - 1 by have := hp.two_le; omega]
  rw [Nat.mul_mod_mod, hexp, ← Nat.totient_prime hp, hfermat, Nat.mod_eq_of_lt hp.one_lt]

/-- Settles O41: the loop's power, and Fermat's little theorem when p is prime. -/
theorem fermatInvIsThePower : Obligations.FermatInvIsThePower := by
  intro W p a hp hW ha hap
  have hpow := fermatInv_eq (by omega) hW a
  exact ⟨hpow, fun hprime => hpow ▸ mul_pow_sub_two_mod hprime ha hap⟩

/-! ## How a command that writes one field register ends (41_modarith.md R130, R131; 60_exceptions.md R260, R262) -/

section
variable {s : State}

/-- A completing command that only wrote `v` to f[rd] has left everything else alone. -/
theorem fieldResult_setF (s : State) (rd : FReg) (v : Nat) : FieldResult s (s.setF rd v).complete rd v :=
  ⟨endsOk_complete rfl rfl rfl rfl, ⟨rfl, rfl, rfl, rfl⟩, State.getF_setF_same s rd v,
    fun r h => State.getF_setF_other s rd r v h, rfl, rfl, rfl, rfl, fun _ => rfl⟩

theorem flagsResult_setFlags (s : State) (fl : Flags) : FlagsResult s (s.setFlags fl).complete fl :=
  ⟨endsOk_complete rfl rfl rfl rfl, ⟨rfl, rfl, rfl, rfl⟩, rfl, rfl, rfl, rfl, rfl, fun _ => rfl⟩

theorem faultsWith_guarded {k : State} {l : List (Bool × CmdFault)} {F : CmdFault} (h : firstFault l = some F) :
    FaultsWith F s (s.guarded l k) := by
  rw [State.guarded_of_fault h]
  exact faultsWith_raise F s

theorem fieldResult_guarded {rd : FReg} {v u : Nat} {l : List (Bool × CmdFault)} (h : firstFault l = none)
    (hv : v = u) : FieldResult s (s.guarded l (s.setF rd v).complete) rd u := by
  rw [State.guarded_of_none h, hv]
  exact fieldResult_setF s rd u

/-! ### Which check fails first (R108(a), R131) -/

variable {ra rb : FReg} {l : List (Bool × CmdFault)}

theorem firstFault_needParams_holds (hp : s.status.pvalid = true) : firstFault (needParams s :: l) = firstFault l := by
  simp [needParams, hp, firstFault]

theorem firstFault_needField_fails (ha : s.getF ra ≥ s.params.p) :
    firstFault (needField s ra :: l) = some .operandRange := by
  simp [needField, ha, firstFault]

theorem firstFault_needField_holds (ha : s.getF ra < s.params.p) : firstFault (needField s ra :: l) = firstFault l := by
  simp [needField, ha, firstFault]

theorem faultsWith_paramsNotReady {k : State} (hp : s.status.pvalid = false) :
    FaultsWith .paramsNotReady s (s.guarded (needParams s :: l) k) :=
  faultsWith_guarded (firstFault_needParams_fails hp l)

theorem faultsWith_operandRange {k : State} (hp : s.status.pvalid = true) (ha : s.getF ra ≥ s.params.p) :
    FaultsWith .operandRange s (s.guarded (needParams s :: needField s ra :: l) k) :=
  faultsWith_guarded ((firstFault_needParams_holds hp).trans (firstFault_needField_fails ha))

/-- Two source operands: whichever is no field element, the fault is the same. -/
theorem faultsWith_operandRange_or {k : State} (hp : s.status.pvalid = true)
    (hab : s.getF ra ≥ s.params.p ∨ s.getF rb ≥ s.params.p) :
    FaultsWith .operandRange s (s.guarded (needParams s :: needField s ra :: needField s rb :: l) k) := by
  rcases Nat.lt_or_ge (s.getF ra) s.params.p with ha | ha
  · refine faultsWith_guarded ((firstFault_needParams_holds hp).trans ((firstFault_needField_holds ha).trans ?_))
    exact firstFault_needField_fails (hab.resolve_left ha.not_ge)
  · exact faultsWith_operandRange hp ha

theorem firstFault_one_operand (hp : s.status.pvalid = true) (ha : s.getF ra < s.params.p) :
    firstFault [needParams s, needField s ra] = none :=
  firstFault_needParams.mpr ⟨hp, firstFault_needField.mpr ⟨ha, firstFault_nil⟩⟩

theorem firstFault_two_operands (hp : s.status.pvalid = true) (ha : s.getF ra < s.params.p)
    (hb : s.getF rb < s.params.p) : firstFault [needParams s, needField s ra, needField s rb] = none :=
  firstFault_needParams.mpr ⟨hp, firstFault_needField.mpr ⟨ha, firstFault_needField.mpr ⟨hb, firstFault_nil⟩⟩⟩

end

/-! ## The multiplier and the reducer under R23's invariant (41_modarith.md R136 to R142) -/

/-- W is a whole number of digits. -/
theorem limbBits_mul_nlimbs {c : Config} (h : c.Legal) : c.limbBits * c.nlimbs = c.fieldBits := by
  obtain ⟨-, ⟨-, -, hdigits⟩, -⟩ := h
  exact Nat.mul_div_cancel' (Nat.dvd_of_mod_eq_zero hdigits)

/-- A double-width value {hi, lo} (R142). -/
theorem high_mul_pow_add_lt {W hi lo : Nat} (hhi : hi < 2 ^ W) (hlo : lo < 2 ^ W) : hi * 2 ^ W + lo < 2 ^ (2 * W) :=
  calc hi * 2 ^ W + lo < (hi + 1) * 2 ^ W := by rw [Nat.succ_mul]; omega
    _ ≤ 2 ^ W * 2 ^ W := Nat.mul_le_mul_right _ hhi
    _ = 2 ^ (2 * W) := by ring

theorem State.mont_lt {s : State} {b : Nat} (hb : b < s.params.p) (a : Nat) : s.mont a b < s.params.p :=
  montMul_lt hb _ _ _ _

namespace NumbersInv

section
variable {s : State} (h : NumbersInv s) (hv : s.status.pvalid = true)
include h hv

/-- R is a unit modulo the odd P. -/
theorem gcd_modulus_pow : Nat.gcd s.params.p (2 ^ s.cfg.fieldBits) = 1 := by
  obtain ⟨⟨hodd, -, -⟩, -⟩ := h.paramsInv hv
  exact (Nat.coprime_two_right.mpr (Nat.odd_iff.mpr hodd)).pow_right _

/-- The multiplier's result times R is the product (R135). -/
theorem mont_mul_pow_modEq {a : Nat} (ha : a < 2 ^ s.cfg.fieldBits) (b : Nat) :
    s.mont a b * 2 ^ s.cfg.fieldBits ≡ a * b [MOD s.params.p] := by
  obtain ⟨-, -, -, -, hpinv⟩ := h.paramsInv hv
  have hW := limbBits_mul_nlimbs h.legal
  rw [← hW] at ha ⊢
  exact montMul_mul_pow_modEq hpinv ha b

/-- R135 fixes the multiplier's result: it is the one residue whose product with R is a · b. -/
theorem mont_eq {a b v : Nat} (ha : a < 2 ^ s.cfg.fieldBits) (hb : b < s.params.p) (hlt : v < s.params.p)
    (hmod : a * b ≡ v * 2 ^ s.cfg.fieldBits [MOD s.params.p]) : s.mont a b = v := by
  have hscaled := (h.mont_mul_pow_modEq hv ha b).trans hmod
  exact (hscaled.cancel_right_of_coprime (h.gcd_modulus_pow hv)).eq_of_lt_of_lt (State.mont_lt hb a) hlt

/-- A pass with RR multiplies by R (R139). -/
theorem mont_rr {a : Nat} (ha : a < 2 ^ s.cfg.fieldBits) :
    s.mont a s.consts.rr = a * 2 ^ s.cfg.fieldBits % s.params.p := by
  obtain ⟨-, -, hrr, -⟩ := h.paramsInv hv
  refine h.mont_eq hv ha (h.rr_lt hv) (Nat.mod_lt _ (h.modulus_pos hv)) ?_
  calc a * s.consts.rr ≡ a * 2 ^ (2 * s.cfg.fieldBits) [MOD s.params.p] := by
        rw [hrr]; exact (Nat.mod_modEq _ _).mul_left a
    _ = a * 2 ^ s.cfg.fieldBits * 2 ^ s.cfg.fieldBits := by ring
    _ ≡ a * 2 ^ s.cfg.fieldBits % s.params.p * 2 ^ s.cfg.fieldBits [MOD s.params.p] :=
        (Nat.mod_modEq _ _).symm.mul_right _

/-- Two passes, the second with RR, multiply exactly (R137). -/
theorem mont_mont_rr {a b : Nat} (ha : a < 2 ^ s.cfg.fieldBits) (hb : b < s.params.p) :
    s.mont (s.mont a b) s.consts.rr = a * b % s.params.p := by
  rw [h.mont_rr hv ((State.mont_lt hb a).trans h.modulus_lt)]
  exact h.mont_mul_pow_modEq hv ha b

/-- A pass with 1 takes R off (R140). -/
theorem mont_scaled_one (a : Nat) :
    s.mont (a * 2 ^ s.cfg.fieldBits % s.params.p) 1 = a % s.params.p := by
  have hp := h.modulus_pos hv
  refine h.mont_eq hv ((Nat.mod_lt _ hp).trans h.modulus_lt) (h.one_lt_modulus hv) (Nat.mod_lt _ hp) ?_
  rw [Nat.mul_one]
  exact (Nat.mod_modEq _ _).trans ((Nat.mod_modEq _ _).symm.mul_right _)

/-- The Montgomery product of two numbers in Montgomery form is their product in Montgomery form. -/
theorem mont_scaled_scaled (a b : Nat) :
    s.mont (a * 2 ^ s.cfg.fieldBits % s.params.p) (b * 2 ^ s.cfg.fieldBits % s.params.p) =
      a * b * 2 ^ s.cfg.fieldBits % s.params.p := by
  have hp := h.modulus_pos hv
  refine h.mont_eq hv ((Nat.mod_lt _ hp).trans h.modulus_lt) (Nat.mod_lt _ hp) (Nat.mod_lt _ hp) ?_
  calc a * 2 ^ s.cfg.fieldBits % s.params.p * (b * 2 ^ s.cfg.fieldBits % s.params.p)
      ≡ a * 2 ^ s.cfg.fieldBits * (b * 2 ^ s.cfg.fieldBits) [MOD s.params.p] :=
        (Nat.mod_modEq _ _).mul (Nat.mod_modEq _ _)
    _ = a * b * 2 ^ s.cfg.fieldBits * 2 ^ s.cfg.fieldBits := by ring
    _ ≡ a * b * 2 ^ s.cfg.fieldBits % s.params.p * 2 ^ s.cfg.fieldBits [MOD s.params.p] :=
        (Nat.mod_modEq _ _).symm.mul_right _

/-- The reducer is exact on every double-width value (R141). -/
theorem barrettReduce_eq {x : Nat} (hx : x < 2 ^ (2 * s.cfg.fieldBits)) :
    barrettReduce s.cfg.fieldBits s.params.p s.consts.mu x = x % s.params.p := by
  obtain ⟨-, -, -, hmu, -⟩ := h.paramsInv hv
  have hW := h.width_ge
  exact barrettReduce_eq_mod (by omega) (h.modulus_full hv).le h.modulus_lt hmu hx

end
end NumbersInv

/-! ## The field commands (41_modarith.md R133 to R147) -/

theorem modAdd_eq {p a b : Nat} (ha : a < p) (hb : b < p) : modAdd p a b = (a + b) % p := by
  unfold modAdd
  split
  · next h => rw [Nat.mod_eq_sub_mod h, Nat.mod_eq_of_lt (by omega)]
  · next h => rw [Nat.mod_eq_of_lt (by omega)]

theorem modSub_eq {p a b : Nat} (ha : a < p) (hb : b < p) : modSub p a b = Spec.residue p ((a : Int) - b) := by
  unfold modSub Spec.residue
  split
  · next h => rw [Int.emod_eq_of_lt (by omega) (by omega)]; omega
  · next h => rw [← Int.add_emod_right, Int.emod_eq_of_lt (by omega) (by omega)]; omega

/-- Settles O4: for field elements one conditional correction by P is the reduction. -/
theorem modAddAndModSubAreExactResidues : Obligations.ModAddAndModSubAreExactResidues := by
  intro rd ra rb s
  refine ⟨decode_encode (.modadd rd ra rb) rfl, decode_encode (.modsub rd ra rb) rfl, fun hp => ⟨?_, ?_⟩,
    fun hp hab => ⟨?_, ?_⟩, fun hp ha hb => ⟨?_, ?_⟩⟩
  · exact ⟨_, rfl, faultsWith_paramsNotReady hp⟩
  · exact ⟨_, rfl, faultsWith_paramsNotReady hp⟩
  · exact ⟨_, rfl, faultsWith_operandRange_or hp hab⟩
  · exact ⟨_, rfl, faultsWith_operandRange_or hp hab⟩
  · exact ⟨_, rfl, fieldResult_guarded (firstFault_two_operands hp ha hb) (modAdd_eq ha hb)⟩
  · exact ⟨_, rfl, fieldResult_guarded (firstFault_two_operands hp ha hb) (modSub_eq ha hb)⟩

/-- Settles O5: the second pass of the multiplier, with RR, undoes the scaling of the first. -/
theorem modMulAndModSqrAreExactResidues : Obligations.ModMulAndModSqrAreExactResidues := by
  intro rd ra rb s
  refine ⟨decode_encode (.modmul rd ra rb) rfl, decode_encode (.modsqr rd ra) rfl, fun hp => ⟨?_, ?_⟩,
    fun hp hab => ?_, fun hp ha => ?_, fun hn hp ha hb => ⟨?_, ?_⟩, fun hn hp ha => ?_⟩
  · exact ⟨_, rfl, faultsWith_paramsNotReady hp⟩
  · exact ⟨_, rfl, faultsWith_paramsNotReady hp⟩
  · exact ⟨_, rfl, faultsWith_operandRange_or hp hab⟩
  · exact ⟨_, rfl, faultsWith_operandRange hp ha⟩
  · exact ⟨_, rfl, fieldResult_guarded (firstFault_two_operands hp ha hb) (hn.mont_mont_rr hp (hn.getF_lt ra) hb)⟩
  · refine hn.barrettReduce_eq hp ?_
    calc s.getF ra * s.getF rb < 2 ^ s.cfg.fieldBits * 2 ^ s.cfg.fieldBits :=
          Nat.mul_lt_mul'' (hn.getF_lt ra) (hn.getF_lt rb)
      _ = 2 ^ (2 * s.cfg.fieldBits) := by ring
  · rw [Nat.pow_two]
    exact ⟨_, rfl, fieldResult_guarded (firstFault_one_operand hp ha) (hn.mont_mont_rr hp (hn.getF_lt ra) ha)⟩

/-- Settles O6: R135 fixes each result, and a conversion is a pass with RR or with 1. -/
theorem montgomeryCommandsScaleByR : Obligations.MontgomeryCommandsScaleByR := by
  intro rd ra rb s
  refine ⟨decode_encode (.montmul rd ra rb) rfl, decode_encode (.tomont rd ra) rfl,
    decode_encode (.frommont rd ra) rfl, fun hp => ⟨?_, ?_, ?_⟩, fun hp hab => ?_, fun hp ha => ⟨?_, ?_⟩,
    fun hn hp ha hb => ?_, fun hn hp ha => ⟨?_, ?_, ?_, fun hb => ?_⟩⟩
  · exact ⟨_, rfl, faultsWith_paramsNotReady hp⟩
  · exact ⟨_, rfl, faultsWith_paramsNotReady hp⟩
  · exact ⟨_, rfl, faultsWith_paramsNotReady hp⟩
  · exact ⟨_, rfl, faultsWith_operandRange_or hp hab⟩
  · exact ⟨_, rfl, faultsWith_operandRange hp ha⟩
  · exact ⟨_, rfl, faultsWith_operandRange hp ha⟩
  · exact ⟨_, _, rfl, fieldResult_guarded (firstFault_two_operands hp ha hb) rfl, State.mont_lt hb _,
      hn.mont_mul_pow_modEq hp (hn.getF_lt ra) _⟩
  · exact ⟨_, rfl, fieldResult_guarded (firstFault_one_operand hp ha) (hn.mont_rr hp (hn.getF_lt ra))⟩
  · have hscale := hn.mont_mul_pow_modEq hp (hn.getF_lt ra) 1
    rw [Nat.mul_one, Nat.ModEq, Nat.mod_eq_of_lt ha] at hscale
    exact ⟨_, _, rfl, fieldResult_guarded (firstFault_one_operand hp ha) rfl,
      State.mont_lt (hn.one_lt_modulus hp) _, hscale⟩
  · rw [hn.mont_rr hp (hn.getF_lt ra), hn.mont_scaled_one hp, Nat.mod_eq_of_lt ha]
  · rw [hn.mont_rr hp (hn.getF_lt ra), hn.mont_rr hp (hn.getF_lt rb), hn.mont_scaled_scaled hp,
      hn.mont_scaled_one hp]

/-- Settles O7: two W-bit registers form a value below 2^(2W), which the reducer takes whole. -/
theorem modRedReducesDoubleWidth : Obligations.ModRedReducesDoubleWidth := by
  intro rd ra rb s
  refine ⟨decode_encode (.modred rd ra rb) rfl, fun hp => ⟨_, rfl, faultsWith_paramsNotReady hp⟩, fun hn hp => ?_⟩
  have hx := high_mul_pow_add_lt (hn.getF_lt ra) (hn.getF_lt rb)
  exact ⟨_, rfl, fieldResult_guarded (firstFault_needParams.mpr ⟨hp, firstFault_nil⟩) (hn.barrettReduce_eq hp hx)⟩

/-- Settles O8: the three checks in R144's order, then the power of R143. -/
theorem modInvIsFermatPower : Obligations.ModInvIsFermatPower := by
  intro rd ra s
  refine ⟨decode_encode (.modinv rd ra) rfl, fun hp => ⟨_, rfl, faultsWith_paramsNotReady hp⟩,
    fun hp ha => ⟨_, rfl, faultsWith_operandRange hp ha⟩, fun hp ha hzero => ?_, fun hn hp ha hne => ?_⟩
  · refine ⟨_, rfl, faultsWith_guarded ?_⟩
    rw [firstFault_needParams_holds hp, firstFault_needField_holds ha, hzero]
    rfl
  · have hchecks : firstFault [needParams s, needField s ra, (s.getF ra == 0, .notInvertible)] = none := by
      rw [firstFault_needParams_holds hp, firstFault_needField_holds ha, beq_false_of_ne hne]
      rfl
    have hpow := fermatInv_eq (hn.one_lt_modulus hp) hn.modulus_lt (s.getF ra)
    refine ⟨_, rfl, fieldResult_guarded hchecks hpow, fun hprime => ?_⟩
    rw [State.guarded_of_none hchecks, State.getF_complete, State.getF_setF_same, hpow]
    exact mul_pow_sub_two_mod hprime (Nat.one_le_iff_ne_zero.mpr hne) ha

theorem exec_cmp (ra rb : FReg) (s : State) : exec (.cmp ra rb) s = .next (s.setFlags { s.flags with
    z := decide (s.getF ra = s.getF rb), c := decide (s.getF ra < s.getF rb) }).complete := rfl

/-- Settles O9: CMP has no check, and writes two of the four flags. -/
theorem cmpWritesZAndC : Obligations.CmpWritesZAndC := by
  intro ra rb s
  exact ⟨decode_encode (.cmp ra rb) rfl, _, exec_cmp ra rb s, flagsResult_setFlags s _⟩

/-- Settles O10: neither command has a check, and neither value passes through the reducer. -/
theorem movAndLdiWriteAnyValue : Obligations.MovAndLdiWriteAnyValue := by
  intro rd ra imm s
  exact ⟨decode_encode (.mov rd ra) rfl, decode_encode (.ldi rd imm) rfl, ⟨_, rfl, fieldResult_setF s rd _⟩,
    ⟨_, rfl, fieldResult_setF s rd _⟩⟩

end Sys2Proof.Machine

namespace Sys2Proof.Machine

/-! ## How a command on point registers ends (42_point.md R160; 60_exceptions.md R260, R262) -/

theorem Triple.not_below_iff {T : Triple} {B : Nat} : ¬ T.Below B ↔ T.x ≥ B ∨ T.y ≥ B ∨ T.z ≥ B := by
  constructor
  · intro h
    by_contra hin
    exact h ⟨by omega, by omega, by omega⟩
  · rintro h ⟨hx, hy, hz⟩
    omega

section
variable {s : State}

/-- A completing command that only wrote `T` to pt[rd] has left everything else alone. -/
theorem pointResult_setPt (s : State) (rd : PReg) (T : Triple) : PointResult s (s.setPt rd T).complete rd T :=
  ⟨endsOk_complete rfl rfl rfl rfl, ⟨rfl, rfl, rfl, rfl⟩, State.getPt_setPt_same s rd T,
    fun j h => State.getPt_setPt_other s rd j T h, rfl, rfl, rfl, rfl, fun _ => rfl⟩

theorem pointResult_guarded {rd : PReg} {T U : Triple} {l : List (Bool × CmdFault)} (h : firstFault l = none)
    (hT : T = U) : PointResult s (s.guarded l (s.setPt rd T).complete) rd U := by
  rw [State.guarded_of_none h, hT]
  exact pointResult_setPt s rd U

theorem flagsResult_guarded {fl gl : Flags} {l : List (Bool × CmdFault)} (h : firstFault l = none) (hfl : fl = gl) :
    FlagsResult s (s.guarded l (s.setFlags fl).complete) gl := by
  rw [State.guarded_of_none h, hfl]
  exact flagsResult_setFlags s gl

/-! ### Which check fails first (R108(a), R160) -/

variable {j k : PReg} {l : List (Bool × CmdFault)}

theorem firstFault_needPoint_fails (hj : ¬ (s.getPt j).Below s.params.p) :
    firstFault (needPoint s j :: l) = some .operandRange := by
  simp [needPoint, Triple.not_below_iff.mp hj, firstFault]

theorem firstFault_needPoint_holds (hj : (s.getPt j).Below s.params.p) :
    firstFault (needPoint s j :: l) = firstFault l := by
  have hrange : ¬ ((s.getPt j).x ≥ s.params.p ∨ (s.getPt j).y ≥ s.params.p ∨ (s.getPt j).z ≥ s.params.p) :=
    fun h => Triple.not_below_iff.mpr h hj
  simp [needPoint, hrange, firstFault]

theorem faultsWith_pointRange {u : State} (hp : s.status.pvalid = true) (hj : ¬ (s.getPt j).Below s.params.p) :
    FaultsWith .operandRange s (s.guarded (needParams s :: needPoint s j :: l) u) :=
  faultsWith_guarded ((firstFault_needParams_holds hp).trans (firstFault_needPoint_fails hj))

/-- Two source points: whichever has a coordinate out of range, the fault is the same. -/
theorem faultsWith_pointRange_or {u : State} (hp : s.status.pvalid = true)
    (hjk : ¬ (s.getPt j).Below s.params.p ∨ ¬ (s.getPt k).Below s.params.p) :
    FaultsWith .operandRange s (s.guarded (needParams s :: needPoint s j :: needPoint s k :: l) u) := by
  by_cases hj : (s.getPt j).Below s.params.p
  · refine faultsWith_guarded ((firstFault_needParams_holds hp).trans ((firstFault_needPoint_holds hj).trans ?_))
    exact firstFault_needPoint_fails (hjk.resolve_left (not_not_intro hj))
  · exact faultsWith_pointRange hp hj

theorem firstFault_one_point (hp : s.status.pvalid = true) (hj : (s.getPt j).Below s.params.p) :
    firstFault (needParams s :: needPoint s j :: l) = firstFault l :=
  (firstFault_needParams_holds hp).trans (firstFault_needPoint_holds hj)

theorem firstFault_two_points (hp : s.status.pvalid = true) (hj : (s.getPt j).Below s.params.p)
    (hk : (s.getPt k).Below s.params.p) : firstFault [needParams s, needPoint s j, needPoint s k] = none :=
  (firstFault_one_point hp hj).trans (firstFault_needPoint_holds hk)

end

/-! ## Exact residues as elements of ZMod p (00_scope.md R13, 42_point.md R160)

Two residues below p are equal when they are equal in ZMod p, and there the operations of R13 are the ring's. -/

section
variable {p : Nat}

@[push_cast] theorem cast_addP (a b : Nat) : (addP p a b : ZMod p) = a + b := by simp [addP]

@[push_cast] theorem cast_mulP (a b : Nat) : (mulP p a b : ZMod p) = a * b := by simp [mulP]

theorem cast_subP (hp : 0 < p) (a b : Nat) : (subP p a b : ZMod p) = a - b := by
  simp [subP, Nat.cast_sub (Nat.mod_lt b hp).le, sub_eq_add_neg]

theorem cast_residue (hp : 0 < p) (x : Int) : (Spec.residue p x : ZMod p) = x := by
  have hnonneg : 0 ≤ x % p := Int.emod_nonneg x (by omega)
  rw [← Int.cast_natCast, Spec.residue, Int.toNat_of_nonneg hnonneg, ZMod.intCast_mod]

theorem residue_lt (hp : 0 < p) (x : Int) : Spec.residue p x < p := by
  have hlt : x % p < p := Int.emod_lt_of_pos x (by omega)
  unfold Spec.residue
  omega

theorem eq_of_cast_eq {a b : Nat} (ha : a < p) (hb : b < p) (h : (a : ZMod p) = b) : a = b :=
  ((ZMod.natCast_eq_natCast_iff a b p).mp h).eq_of_lt_of_lt ha hb

theorem cast_eq_zero_iff {a : Nat} (ha : a < p) : (a : ZMod p) = 0 ↔ a = 0 :=
  ⟨fun h => eq_of_cast_eq ha (by omega) (h.trans Nat.cast_zero.symm), fun h => by rw [h, Nat.cast_zero]⟩

theorem eq_residue_of_cast {v : Nat} {x : Int} (hv : v < p) (h : (v : ZMod p) = x) : v = Spec.residue p x :=
  eq_of_cast_eq hv (residue_lt (by omega) x) (h.trans (cast_residue (by omega) x).symm)

theorem residue_eq_zero_iff (hp : 0 < p) (x : Int) : Spec.residue p x = 0 ↔ (x : ZMod p) = 0 := by
  rw [← cast_eq_zero_iff (residue_lt hp x), cast_residue hp]

/-! ## The point formulas are the stated polynomials (42_point.md R161, R174) -/

theorem jdbl_eq_double (hp : 0 < p) (a : Nat) (T : Triple) : jdbl p a T = Spec.double p a T := by
  simp only [jdbl, Spec.double]
  split
  · rfl
  · congr 1
    · exact eq_residue_of_cast (subP_lt hp _ _) (by push_cast [cast_subP hp]; ring)
    · exact eq_residue_of_cast (subP_lt hp _ _) (by push_cast [cast_subP hp]; ring)
    · exact eq_residue_of_cast (mulP_lt hp _ _) (by push_cast; ring)

/-- R174's addition of two finite triples: H and R decide between doubling, infinity and the chord. -/
theorem jadd_eq_add_of_finite (hp : 0 < p) (a : Nat) {T U : Triple} (hT : T.z ≠ 0) (hU : U.z ≠ 0) :
    jadd p a T U = Spec.add p a T U := by
  have hH : subP p (mulP p U.x (mulP p T.z T.z)) (mulP p T.x (mulP p U.z U.z)) =
      Spec.residue p (U.x * T.z ^ 2 - T.x * U.z ^ 2) :=
    eq_residue_of_cast (subP_lt hp _ _) (by push_cast [cast_subP hp]; ring)
  have hR : subP p (mulP p U.y (mulP p (mulP p T.z T.z) T.z)) (mulP p T.y (mulP p (mulP p U.z U.z) U.z)) =
      Spec.residue p (U.y * T.z ^ 3 - T.y * U.z ^ 3) :=
    eq_residue_of_cast (subP_lt hp _ _) (by push_cast [cast_subP hp]; ring)
  simp only [jadd, Spec.add, hT, hU, false_and, if_false, hH, hR, jdbl_eq_double hp]
  split
  · rfl
  · congr 1
    · exact eq_residue_of_cast (subP_lt hp _ _) (by push_cast [cast_subP hp, cast_residue hp]; ring)
    · exact eq_residue_of_cast (subP_lt hp _ _) (by push_cast [cast_subP hp, cast_residue hp]; ring)
    · exact eq_residue_of_cast (mulP_lt hp _ _) (by push_cast [cast_residue hp]; ring)

theorem jadd_eq_add (hp : 0 < p) (a : Nat) (T U : Triple) : jadd p a T U = Spec.add p a T U := by
  by_cases hT : T.z = 0
  · by_cases hU : U.z = 0
    · simp [jadd, Spec.add, hT, hU, Triple.inf]
    · simp [jadd, Spec.add, hT, hU]
  · by_cases hU : U.z = 0
    · simp [jadd, Spec.add, hT, hU]
    · exact jadd_eq_add_of_finite hp a hT hU

end

/-- Settles O11: both checks, then R161's polynomials. -/
theorem pdblWritesTheDoublingFormula : Obligations.PdblWritesTheDoublingFormula := by
  intro rd ra s
  refine ⟨decode_encode (.pdbl rd ra) rfl, fun hp => ⟨_, rfl, faultsWith_paramsNotReady hp⟩,
    fun hp hbad => ⟨_, rfl, faultsWith_pointRange hp (Triple.not_below_iff.mpr hbad)⟩, fun hp hx hy hz => ?_⟩
  exact ⟨_, rfl, pointResult_guarded (firstFault_one_point hp ⟨hx, hy, hz⟩) (jdbl_eq_double (by omega) _ _)⟩

/-- The range condition on two operand triples, as the statements write it. -/
theorem Triple.not_below_or {T U : Triple} {B : Nat}
    (h : T.x ≥ B ∨ T.y ≥ B ∨ T.z ≥ B ∨ U.x ≥ B ∨ U.y ≥ B ∨ U.z ≥ B) : ¬ T.Below B ∨ ¬ U.Below B := by
  rw [Triple.not_below_iff, Triple.not_below_iff]
  tauto

/-- Settles O12: both checks, then R174's polynomials with their special cases. -/
theorem paddWritesTheAdditionFormula : Obligations.PaddWritesTheAdditionFormula := by
  intro rd ra rb s
  refine ⟨decode_encode (.padd rd ra rb) rfl, fun hp => ⟨_, rfl, faultsWith_paramsNotReady hp⟩,
    fun hp hbad => ⟨_, rfl, faultsWith_pointRange_or hp (Triple.not_below_or hbad)⟩,
    fun hp hTx hTy hTz hUx hUy hUz => ?_⟩
  exact ⟨_, rfl, pointResult_guarded (firstFault_two_points hp ⟨hTx, hTy, hTz⟩ ⟨hUx, hUy, hUz⟩)
    (jadd_eq_add (by omega) _ _ _)⟩

/-! ## The affine point, the comparison and the curve equation (42_point.md R165, R178, R179) -/

theorem mulP_mulP_sq (p x z : Nat) : mulP p x (mulP p z z) = x * z ^ 2 % p := by
  rw [mulP, mulP, Nat.mul_mod_mod, Nat.pow_two]

theorem mulP_mulP_cube (p y z : Nat) : mulP p y (mulP p (mulP p z z) z) = y * z ^ 3 % p := by
  rw [mulP, mulP, mulP, Nat.mod_mul_mod, Nat.mul_mod_mod, Nat.pow_succ, Nat.pow_two]

/-- R178 for every modulus, prime or not. -/
theorem toAffine_eq {W p : Nat} (hp : 1 < p) (hW : p < 2 ^ W) (T : Triple) :
    toAffine W p T = (T.x * (T.z ^ (p - 2)) ^ 2 % p, T.y * (T.z ^ (p - 2)) ^ 3 % p) := by
  rw [toAffine, fermatInv_eq hp hW]
  simp only [mulP_mulP_sq, mulP_mulP_cube]
  congr 1
  · exact ((Nat.mod_modEq _ p).pow 2).mul_left T.x
  · exact ((Nat.mod_modEq _ p).pow 3).mul_left T.y

/-- R164's remark: Z = 1 has Z⁻¹ = 1, so an affine triple is its own affine point. -/
theorem toAffine_of_z_one {W p : Nat} (hp : 1 < p) (hW : p < 2 ^ W) {T : Triple} (hT : T.Below p) (hone : T.z = 1) :
    toAffine W p T = (T.x, T.y) := by
  simp [toAffine_eq hp hW, hone, Nat.mod_eq_of_lt hT.x, Nat.mod_eq_of_lt hT.y]

/-- Settles O13: the three checks in R164's order, then the affine point. -/
theorem paffWritesTheAffinePoint : Obligations.PaffWritesTheAffinePoint := by
  intro rd ra s
  refine ⟨decode_encode (.paff rd ra) rfl, fun hp => ⟨_, rfl, faultsWith_paramsNotReady hp⟩,
    fun hp hbad => ⟨_, rfl, faultsWith_pointRange hp (Triple.not_below_iff.mpr hbad)⟩,
    fun hp hx hy hz hzero => ?_, fun hn hp hx hy hz hne => ?_⟩
  · refine ⟨_, rfl, faultsWith_guarded ?_⟩
    rw [firstFault_one_point hp ⟨hx, hy, hz⟩, hzero]
    rfl
  · have hchecks : firstFault [needParams s, needPoint s ra, ((s.getPt ra).z == 0, .pointAtInfinity)] = none := by
      rw [firstFault_one_point hp ⟨hx, hy, hz⟩, beq_false_of_ne hne]
      rfl
    have hp1 := hn.one_lt_modulus hp
    refine ⟨_, rfl, pointResult_guarded hchecks (by rw [State.affine, toAffine_eq hp1 hn.modulus_lt]), fun hone => ?_⟩
    rw [State.guarded_of_none hchecks, State.getPt_complete, State.getPt_setPt_same, State.affine,
      toAffine_of_z_one hp1 hn.modulus_lt ⟨hx, hy, hz⟩ hone, ← hone]

theorem pointEq_eq (p : Nat) (T U : Triple) : pointEq p T U = decide ((T.z = 0 ∧ U.z = 0) ∨ (T.z ≠ 0 ∧ U.z ≠ 0 ∧
    T.x * U.z ^ 2 % p = U.x * T.z ^ 2 % p ∧ T.y * U.z ^ 3 % p = U.y * T.z ^ 3 % p)) := by
  by_cases hT : T.z = 0
  · by_cases hU : U.z = 0
    · simp [pointEq, hT, hU]
    · simp [pointEq, hT, hU]
  · by_cases hU : U.z = 0
    · simp [pointEq, hT, hU]
    · simp [pointEq, hT, hU, mulP_mulP_sq, mulP_mulP_cube, Bool.beq_eq_decide_eq]

/-- Settles O14: both checks, then R165's comparison as the new Z. -/
theorem peqComparesPoints : Obligations.PeqComparesPoints := by
  intro ra rb s
  refine ⟨decode_encode (.peq ra rb) rfl, fun hp => ⟨_, rfl, faultsWith_paramsNotReady hp⟩,
    fun hp hbad => ⟨_, rfl, faultsWith_pointRange_or hp (Triple.not_below_or hbad)⟩,
    fun hp hTx hTy hTz hUx hUy hUz => ?_⟩
  exact ⟨_, rfl, flagsResult_guarded (firstFault_two_points hp ⟨hTx, hTy, hTz⟩ ⟨hUx, hUy, hUz⟩)
    (by rw [pointEq_eq])⟩

theorem onCurve_eq (p a b x y : Nat) :
    onCurve p a b x y = decide (x < p ∧ y < p ∧ y ^ 2 % p = (x ^ 3 + a * x + b) % p) := by
  have hcubic : addP p (addP p (mulP p (mulP p x x) x) (mulP p a x)) b = (x ^ 3 + a * x + b) % p := by
    rw [addP, addP, mulP, mulP, mulP, Nat.mod_mul_mod, ← Nat.add_mod, Nat.mod_add_mod, Nat.pow_succ, Nat.pow_two]
  rw [onCurve, hcubic, mulP, ← Nat.pow_two]
  simp [Bool.and_assoc, Bool.beq_eq_decide_eq]

theorem exec_pisinf (ra : PReg) (s : State) : exec (.pisinf ra) s = .next (s.setFlags { s.flags with
    i := decide ((s.getPt ra).z = 0) }).complete := rfl

/-- Settles O15: PISINF has no check, and ONC's range test is part of its answer. -/
theorem pisinfAndOncWriteTheirFlag : Obligations.PisinfAndOncWriteTheirFlag := by
  intro pa ra rb s
  refine ⟨decode_encode (.pisinf pa) rfl, decode_encode (.onc ra rb) rfl,
    ⟨_, exec_pisinf pa s, flagsResult_setFlags s _⟩, fun hp => ⟨_, rfl, faultsWith_paramsNotReady hp⟩, fun hp => ?_⟩
  exact ⟨_, rfl, flagsResult_guarded (firstFault_needParams.mpr ⟨hp, firstFault_nil⟩)
    (by rw [State.isOnCurve, onCurve_eq])⟩

/-! ## Scalar multiplication (42_point.md R175, R176) -/

section
variable {p : Nat}

theorem ladder_zero (p a : Nat) (T : Triple) (n : Nat) : Spec.ladder p a T n 0 = ⟨0, 0, 0⟩ := by
  cases n <;> simp [Spec.ladder]

/-- At scalar 0 the ladder's step gives infinity as well, so it needs no test for 0: R175's fixed steps over leading
zero bits change nothing. -/
theorem ladder_succ (p a : Nat) (T : Triple) (n k : Nat) : Spec.ladder p a T (n + 1) k =
    if k % 2 = 1 then Spec.add p a (Spec.double p a (Spec.ladder p a T n (k / 2))) T
    else Spec.double p a (Spec.ladder p a T n (k / 2)) := by
  by_cases hk : k = 0
  · simp [hk, ladder_zero, Spec.double]
  · simp [Spec.ladder, hk]

theorem double_infinite (p a : Nat) {T : Triple} (hT : T.z = 0) : Spec.double p a T = ⟨0, 0, 0⟩ := by
  simp [Spec.double, hT]

/-- The loop over the bits below `n`, from what the ladder has made of the bits above, goes on with the ladder. -/
theorem jmulLoop_ladder (hp : 0 < p) (a k : Nat) (T : Triple) (n m : Nat) :
    jmulLoop p a k T n (Spec.ladder p a T m (k / 2 ^ n)) = Spec.ladder p a T (m + n) k := by
  induction n generalizing m with
  | zero => simp [jmulLoop]
  | succ n ih =>
    have hstep : jmulLoop p a k T (n + 1) (Spec.ladder p a T m (k / 2 ^ (n + 1))) =
        jmulLoop p a k T n (Spec.ladder p a T (m + 1) (k / 2 ^ n)) := by
      rw [ladder_succ, Nat.div_div_eq_div_mul, ← Nat.pow_succ]
      simp only [jmulLoop, jdbl_eq_double hp, jadd_eq_add hp, Nat.testBit_eq_decide_div_mod_eq, decide_eq_true_eq]
    rw [hstep, ih, Nat.add_right_comm, Nat.add_assoc]

theorem jmul_eq_ladder (hp : 0 < p) (W a k : Nat) (T : Triple) : jmul W p a k T = Spec.ladder p a T W k := by
  have h := jmulLoop_ladder hp a k T W 0
  rwa [Nat.zero_add] at h

theorem ladder_infinite (p a : Nat) {T : Triple} (hT : T.z = 0) (n k : Nat) :
    Spec.ladder p a T n k = ⟨0, 0, 0⟩ := by
  induction n generalizing k with
  | zero => rfl
  | succ n ih =>
    rw [ladder_succ, ih, double_infinite p a rfl]
    simp [Spec.add, hT]

end

/-- Settles O17: both checks, then the ladder; the scalar has no check. -/
theorem pmulDoublesAndAddsOverTheScalar : Obligations.PmulDoublesAndAddsOverTheScalar := by
  intro rd ra rb s
  refine ⟨decode_encode (.pmul rd ra rb) rfl, fun hp => ⟨_, rfl, faultsWith_paramsNotReady hp⟩,
    fun hp hbad => ⟨_, rfl, faultsWith_pointRange hp (Triple.not_below_iff.mpr hbad)⟩, fun _ hp hx hy hz => ?_⟩
  have hchecks := (firstFault_one_point hp ⟨hx, hy, hz⟩).trans firstFault_nil
  have hres := pointResult_guarded (s := s) (rd := rd) hchecks
    (jmul_eq_ladder (Nat.zero_lt_of_lt hx) s.cfg.fieldBits s.params.a (s.getF rb) (s.getPt ra))
  obtain ⟨hends, hsetup, hpt, hrest⟩ := hres
  exact ⟨_, rfl, ⟨hends, hsetup, hpt, hrest⟩, fun hk => hpt.trans (by rw [hk, ladder_zero]),
    fun hinf => congrArg Triple.z (hpt.trans (ladder_infinite _ _ hinf _ _))⟩

/-! ## The moves and the scalar check (42_point.md R167 to R172, R177) -/

/-- PGET's row is the one row with a selector, and R103(3) bounds it. -/
theorem decode_pget_selector_above {sel : BitVec 4} (h : 3 ≤ sel.toNat) (rd ra rest) :
    ∃ e, decode (wordOf 0x2A rd ra sel rest) = .error e := by
  cases hd : decode (wordOf 0x2A rd ra sel rest) with
  | error e => exact ⟨e, rfl⟩
  | ok i =>
    obtain ⟨o, hop, -, -, hsel, -⟩ := decode_eq_ok.mp hd
    rw [fieldOp_wordOf] at hop
    obtain rfl : Opcode.pget = o := Option.some.inj ((Opcode.ofCode_code .pget).symm.trans hop)
    rw [Format.selectorOk, Slot.selOk_iff, fieldRb_wordOf] at hsel
    have := hsel rfl
    omega

/-- Settles O16: no command here has a check, and each writes one register with a value it only reads. -/
theorem pointMovesCopyExactly : Obligations.PointMovesCopyExactly := by
  intro pd pa fd fa fb s
  refine ⟨decode_encode (.psetinf pd) rfl, decode_encode (.pldg pd) rfl, decode_encode (.pldq pd) rfl,
    decode_encode (.pmov pd pa) rfl, decode_encode (.pset pd fa fb) rfl, decode_encode (.pget fd pa .x) rfl,
    decode_encode (.pget fd pa .y) rfl, decode_encode (.pget fd pa .z) rfl,
    fun sel hsel => decode_pget_selector_above hsel _ _ _, ?_⟩
  exact ⟨⟨_, rfl, pointResult_setPt s pd _⟩, ⟨_, rfl, pointResult_setPt s pd _⟩, ⟨_, rfl, pointResult_setPt s pd _⟩,
    ⟨_, rfl, pointResult_setPt s pd _⟩, ⟨_, rfl, pointResult_setPt s pd _⟩, ⟨_, rfl, fieldResult_setF s fd _⟩,
    ⟨_, rfl, fieldResult_setF s fd _⟩, ⟨_, rfl, fieldResult_setF s fd _⟩⟩

theorem validScalar_iff {n k : Nat} : validScalar n k = true ↔ 1 ≤ k ∧ k ≤ n - 1 := by
  rw [validScalar, Bool.and_eq_true, decide_eq_true_eq, decide_eq_true_eq]
  omega

theorem regsResult_complete (s : State) : RegsResult s s.complete s.regs :=
  ⟨endsOk_complete rfl rfl rfl rfl, ⟨rfl, rfl, rfl, rfl⟩, rfl, rfl, rfl, rfl, rfl, fun _ => rfl⟩

/-- Settles O18: SCHK's one check is its whole meaning. -/
theorem schkFaultsOutsideTheScalarRange : Obligations.SchkFaultsOutsideTheScalarRange := by
  intro ra s
  refine ⟨decode_encode (.schk ra) rfl, fun h => ⟨_, rfl, ?_⟩, fun h => ⟨_, rfl, faultsWith_guarded ?_⟩⟩
  · rw [validScalar_iff.mpr h]
    exact regsResult_complete s
  · rw [Bool.eq_false_of_not_eq_true fun hv => h (validScalar_iff.mp hv)]
    rfl

/-! ## The formulas over a prime field (42_point.md R181, 10_state.md R25) -/

section
variable {F : Type} [Field F]

/-- R161's M is Z3 times the slope of the tangent, so the doubled triple stands for the tangent construction. -/
theorem tangent_of_double {a x y z m x3 y3 z3 l : F} (h2 : (2 : F) ≠ 0) (hy : y ≠ 0) (hz : z ≠ 0)
    (hm : m = 3 * x ^ 2 + a * z ^ 4) (hx3 : x3 = m ^ 2 - 2 * (4 * x * y ^ 2))
    (hy3 : y3 = m * (4 * x * y ^ 2 - x3) - 8 * y ^ 4) (hz3 : z3 = 2 * y * z)
    (hl : l = (3 * (x * (z ^ 2)⁻¹) ^ 2 + a) * (2 * (y * (z ^ 3)⁻¹))⁻¹) :
    z3 ≠ 0 ∧ x3 * (z3 ^ 2)⁻¹ = l ^ 2 - 2 * (x * (z ^ 2)⁻¹) ∧
      y3 * (z3 ^ 3)⁻¹ = l * (x * (z ^ 2)⁻¹ - x3 * (z3 ^ 2)⁻¹) - y * (z ^ 3)⁻¹ := by
  have hslope : l = m * z3⁻¹ := by
    rw [hl, hm, hz3]
    field_simp
  subst hz3
  refine ⟨mul_ne_zero (mul_ne_zero h2 hy) hz, ?_, ?_⟩
  · rw [hslope, hx3]
    field_simp
    ring
  · rw [hslope, hy3]
    field_simp
    ring

/-- R174's R is Z3 times the slope of the chord, so the sum of (x, y, z) and (u, v, w) stands for the chord
construction. -/
theorem chord_of_add {x y z u v w h r x3 y3 z3 l : F} (hz : z ≠ 0) (hw : w ≠ 0) (hne : h ≠ 0)
    (hh : h = u * z ^ 2 - x * w ^ 2) (hr : r = v * z ^ 3 - y * w ^ 3)
    (hx3 : x3 = r ^ 2 - h ^ 3 - 2 * (x * w ^ 2) * h ^ 2)
    (hy3 : y3 = r * (x * w ^ 2 * h ^ 2 - x3) - y * w ^ 3 * h ^ 3) (hz3 : z3 = h * z * w)
    (hl : l = (v * (w ^ 3)⁻¹ - y * (z ^ 3)⁻¹) * (u * (w ^ 2)⁻¹ - x * (z ^ 2)⁻¹)⁻¹) :
    z3 ≠ 0 ∧ x3 * (z3 ^ 2)⁻¹ = l ^ 2 - x * (z ^ 2)⁻¹ - u * (w ^ 2)⁻¹ ∧
      y3 * (z3 ^ 3)⁻¹ = l * (x * (z ^ 2)⁻¹ - x3 * (z3 ^ 2)⁻¹) - y * (z ^ 3)⁻¹ := by
  have hdx : u * (w ^ 2)⁻¹ - x * (z ^ 2)⁻¹ = h * (z ^ 2 * w ^ 2)⁻¹ := by
    rw [hh]
    field_simp
  have hslope : l = r * z3⁻¹ := by
    rw [hl, hdx, hr, hz3]
    field_simp
  subst hz3
  refine ⟨mul_ne_zero (mul_ne_zero hne hz) hw, ?_, ?_⟩
  · rw [hslope, hx3]
    field_simp
    linear_combination (-h ^ 2) * hh
  · rw [hslope, hy3]
    field_simp

end

section
variable {p : Nat} (hp : 0 < p) (a : Nat) {T U : Triple}
include hp

/-- R161's polynomials in ZMod p, with Y3 in terms of X3. -/
theorem cast_jdbl (hz : T.z ≠ 0) (hy : T.y ≠ 0) :
    ((jdbl p a T).x : ZMod p) = (3 * T.x ^ 2 + a * T.z ^ 4) ^ 2 - 2 * (4 * T.x * T.y ^ 2) ∧
    ((jdbl p a T).y : ZMod p) =
      (3 * T.x ^ 2 + a * T.z ^ 4) * (4 * T.x * T.y ^ 2 - (jdbl p a T).x) - 8 * T.y ^ 4 ∧
    ((jdbl p a T).z : ZMod p) = 2 * T.y * T.z := by
  simp only [jdbl, hz, hy, or_self, if_false]
  push_cast [cast_subP hp]
  exact ⟨by ring, by ring, by ring⟩

/-- R174's polynomials in ZMod p for two finite triples with H ≠ 0, with Y3 in terms of X3. -/
theorem cast_jadd (hT : T.z ≠ 0) (hU : U.z ≠ 0) {h r : ZMod p} (hh : h = U.x * T.z ^ 2 - T.x * U.z ^ 2)
    (hr : r = U.y * T.z ^ 3 - T.y * U.z ^ 3) (hne : h ≠ 0) :
    ((jadd p a T U).x : ZMod p) = r ^ 2 - h ^ 3 - 2 * (T.x * U.z ^ 2) * h ^ 2 ∧
    ((jadd p a T U).y : ZMod p) = r * (T.x * U.z ^ 2 * h ^ 2 - (jadd p a T U).x) - T.y * U.z ^ 3 * h ^ 3 ∧
    ((jadd p a T U).z : ZMod p) = h * T.z * U.z := by
  have hres : Spec.residue p (U.x * T.z ^ 2 - T.x * U.z ^ 2) ≠ 0 := by
    rw [Ne, residue_eq_zero_iff hp]
    push_cast
    exact hh ▸ hne
  simp only [jadd_eq_add hp, Spec.add, hT, hU, hres, if_false, cast_residue hp]
  push_cast
  rw [← hh, ← hr]
  exact ⟨by ring, by ring, by ring⟩

end

/-- Settles O42: in the field the block's operations are the field's, so the two identities above apply to its own
doubling and addition. -/
theorem jacobianFormulasAreTangentAndChord : Obligations.JacobianFormulasAreTangentAndChord := by
  intro p a T U hprime hp3 X Y
  have hp : 0 < p := hprime.pos
  have : Fact p.Prime := ⟨hprime⟩
  have hcast {v : Nat} (hv : v < p) (hne : v ≠ 0) : (v : ZMod p) ≠ 0 := (cast_eq_zero_iff hv).not.mpr hne
  have hnat {v : Nat} (hne : (v : ZMod p) ≠ 0) : v ≠ 0 := fun h => hne (by rw [h, Nat.cast_zero])
  refine ⟨fun _ hy hz hTz hTy => ?_, fun _ _ hz hTz _ _ hw hUz hne => ?_⟩
  · obtain ⟨hx3, hy3, hz3⟩ := cast_jdbl hp a hTz hTy
    have h2 : (2 : ZMod p) ≠ 0 := hcast (v := 2) (by omega) (by decide)
    obtain ⟨hVz, hV⟩ := tangent_of_double h2 (hcast hy hTy) (hcast hz hTz) rfl hx3 hy3 hz3 rfl
    exact ⟨hnat hVz, hV⟩
  · have hfz := hcast hz hTz
    have hfw := hcast hw hUz
    have hh : (U.x * T.z ^ 2 - T.x * U.z ^ 2 : ZMod p) ≠ 0 := fun h => hne (by
      simp only [X]
      field_simp
      linear_combination -h)
    obtain ⟨hx3, hy3, hz3⟩ := cast_jadd hp a hTz hUz rfl rfl hh
    obtain ⟨hVz, hV⟩ := chord_of_add hfz hfw hh rfl rfl hx3 hy3 hz3 rfl
    exact ⟨hnat hVz, hV⟩

end Sys2Proof.Machine

namespace Sys2Proof.Config

/-- A digest has at least one byte (R6). -/
theorem one_le_digestLen {c : Config} (h : c.Legal) {n : Nat} (hn : n < c.nhash) : 1 ≤ c.digestLen n := by
  obtain ⟨-, -, ⟨-, -, hd⟩, -⟩ := h
  rw [digestLen, List.getD_eq_getElem _ _ hn]
  exact (hd _ (List.getElem_mem hn)).1

end Sys2Proof.Config

namespace Sys2Proof.Machine

/-! ## The keystream as a function (43_kdf.md R190, R194) -/

/-- The counter's four bytes do not see its reduction modulo 2^32. -/
theorem be32_mod (n : Nat) : be32 (n % 2 ^ 32) = be32 n := by
  have h := i2osp_os2ip (be32 n)
  rwa [length_be32, be32, os2ip_i2osp, show 256 ^ 4 = 2 ^ 32 by norm_num] at h

section
variable {H : List Byte → List Byte} {D : Nat} {seed : List Byte}

@[simp] theorem length_keystream (L : Nat) : (Spec.keystream H D seed L).length = L := by
  simp [Spec.keystream]

theorem take_keystream {L L' : Nat} (h : L ≤ L') :
    (Spec.keystream H D seed L').take L = Spec.keystream H D seed L := by
  rw [Spec.keystream, ← List.map_take, List.take_range, Nat.min_eq_left h, Spec.keystream]

variable (hH : ∀ m, (H m).length = D)
include hH

/-- The first bytes of request number 1 + k go on after the bytes of the `k` requests before it. -/
theorem keystream_append_take {n : Nat} (hn : n ≤ D) (k : Nat) :
    Spec.keystream H D seed (D * k) ++ (H (seed ++ be32 (1 + k))).take n = Spec.keystream H D seed (D * k + n) := by
  rw [Spec.keystream, Spec.keystream, List.range_add, List.map_append, List.map_map, List.append_cancel_left_eq]
  refine List.ext_getElem (by simp [hH, hn]) fun i hi _ => ?_
  have hiD : i < D := by simp only [List.length_take] at hi; omega
  have hdiv : (D * k + i) / D = k := by rw [Nat.mul_add_div (by omega), Nat.div_eq_of_lt hiD, Nat.add_zero]
  have hmod : (D * k + i) % D = i := by rw [Nat.mul_add_mod, Nat.mod_eq_of_lt hiD]
  simp [Spec.kdfByte, hdiv, hmod, be32, hH, hiD]

/-- One request whole. -/
theorem keystream_append_request (k : Nat) :
    Spec.keystream H D seed (D * k) ++ H (seed ++ be32 (1 + k)) = Spec.keystream H D seed (D * (k + 1)) := by
  have h := keystream_append_take hH (seed := seed) le_rfl k
  rwa [List.take_of_length_le (hH _).le, ← Nat.mul_succ] at h

variable (hD : 1 ≤ D)
include hD

/-- The loop of R190 after `k` requests, with the counter known modulo 2^32 and fuel for the bytes that are left. -/
theorem kdfLoop_eq_keystream {L : Nat} (fuel : Nat) {k ct : Nat} (hct : ct % 2 ^ 32 = (1 + k) % 2 ^ 32)
    (hfuel : L ≤ fuel + D * k) :
    kdfLoop H seed L fuel ct (Spec.keystream H D seed (D * k)) = Spec.keystream H D seed L := by
  induction fuel generalizing k ct with
  | zero => rw [kdfLoop, take_keystream (by omega)]
  | succ fuel ih =>
    rw [kdfLoop, length_keystream]
    split
    · rw [← be32_mod ct, hct, be32_mod, keystream_append_request hH]
      exact ih (by omega) (by rw [Nat.mul_succ]; omega)
    · rw [take_keystream (by omega)]

theorem kdf_eq_keystream (L : Nat) : kdf H seed L = Spec.keystream H D seed L :=
  kdfLoop_eq_keystream hH hD L (k := 0) rfl (by omega)

theorem length_kdf (L : Nat) : (kdf H seed L).length = L := by
  rw [kdf_eq_keystream hH hD, length_keystream]

end

/-- Settles O46: the loop's output is the keystream, whose bytes do not depend on the length asked for. -/
theorem kdfIsThePrefixOfItsRequests : Obligations.KdfIsThePrefixOfItsRequests := by
  intro H D seed hD hH L
  simp only [kdf_eq_keystream hH hD]
  exact ⟨trivial, length_keystream L, fun L' h => (take_keystream h).symm⟩

/-! ## Command KDF (43_kdf.md R191) -/

theorem State.length_hashWith {P : Ports} (hP : P.Lawful) (s : State) (m : List Byte) :
    (s.hashWith P m).length = s.dlen := hP.1 _ _ m

section
variable {s : State}

theorem firstFault_needHash_holds (hh : s.hsel < s.cfg.nhash) (l : List (Bool × CmdFault)) :
    firstFault (needHash s :: l) = firstFault l := by
  rw [needHash, decide_eq_false (not_le.mpr hh), firstFault_cons_good]

/-- KDF's three checks on a length raise the same fault, so their order does not show. -/
theorem firstFault_kdfChecks (hh : s.hsel < s.cfg.nhash) : firstFault (kdfChecks s) =
    if s.regs.seedlen.toNat > 128 ∨ s.regs.kslen.toNat > s.cfg.msgCap ∨ s.regs.kslen.toNat > 2 ^ 32 * s.dlen
    then some .invalidLength else none := by
  rw [kdfChecks, firstFault_needHash_holds hh]
  simp only [firstFault, State.needKdfLen, decide_eq_true_eq, ite_or]

theorem firstFault_kdfChecks_eq_none (hs : s.cfg.Legal) (hh : s.hsel < s.cfg.nhash)
    (hseed : s.regs.seedlen.toNat ≤ 128) (hks : s.regs.kslen.toNat ≤ s.cfg.msgCap) :
    firstFault (kdfChecks s) = none := by
  have hD : 1 ≤ s.dlen := Config.one_le_digestLen hs hh
  have hlt := s.regs.kslen.isLt
  rw [firstFault_kdfChecks hh, if_neg (by omega)]

theorem storeResult_writeBuf (hwf : s.mem.wf = true) (b : Buffer) (bs : List Byte) :
    StoreResult s (s.writeBuf b bs).complete b.base bs s.regs :=
  ⟨endsOk_complete rfl rfl rfl rfl, ⟨rfl, rfl, rfl, rfl⟩, rfl, rfl, rfl, rfl, rfl,
    fun a => Memory.read_writeBytes s.mem b.base bs a hwf⟩

end

/-- Settles O19: the checks in their order, and the loop's output as the keystream of the free hash. -/
theorem kdfStoresTheKeystream : Obligations.KdfStoresTheKeystream := by
  refine ⟨decode_encode .kdf rfl, fun s => ⟨fun hh => ⟨_, rfl, ?_⟩, fun hh hlen => ⟨_, rfl, ?_⟩,
    fun ⟨hs, hwf, _⟩ hh hseed hks => ⟨_, rfl, ?_⟩⟩⟩
  · exact faultsWith_guarded (firstFault_needHash_fails hh _)
  · exact faultsWith_guarded ((firstFault_kdfChecks hh).trans (if_pos hlen))
  · rw [kdfWith, State.guarded_of_none (firstFault_kdfChecks_eq_none hs hh hseed hks),
      kdf_eq_keystream (State.length_hashWith Ports.free_lawful s) (Config.one_le_digestLen hs hh)]
    exact storeResult_writeBuf hwf .ks _

end Sys2Proof.Machine

namespace Sys2Proof.Machine

/-! ## The KDF machine (43_kdf.md R192, 45_engine.md R250 to R252) -/

theorem seqRun_add (P : Ports) (m n : Nat) (s : State) : seqRun P (m + n) s = seqRun P n (seqRun P m s) := by
  induction m generalizing s with
  | zero => rw [Nat.zero_add, seqRun]
  | succ m ih => rw [Nat.succ_add, seqRun, ih, seqRun]

/-- A command runs that uses the KDF machine. -/
def UsesKdf (s : State) : Prop :=
  s.status.busy = true ∧
    (decode s.fetch = .ok .kdf ∨ decode s.fetch = .ok .encrypt ∨ decode s.fetch = .ok .decrypt)

/-- The phases of R192's table. -/
def kdfPhases : List Phase := [.kInit, .kSeed, .kCtr, .kFin, .kOut]

theorem mem_kdfPhases {ph : Phase} :
    ph ∈ kdfPhases ↔ ph = .kInit ∨ ph = .kSeed ∨ ph = .kCtr ∨ ph = .kFin ∨ ph = .kOut := by
  simp [kdfPhases]

/-- In the phases of R192 the three commands take the same edge. -/
theorem seqAdvance_of_kdfPhases (P : Ports) {s : State} (hs : UsesKdf s) (hph : s.phase ∈ kdfPhases) :
    seqAdvance P s = kdfAdvance P s := by
  have hencrypt : encryptAdvance P s = kdfAdvance P s := by
    rcases mem_kdfPhases.mp hph with h | h | h | h | h <;> simp only [encryptAdvance, h]
  have hdecrypt : decryptAdvance P s = kdfAdvance P s := by
    rcases mem_kdfPhases.mp hph with h | h | h | h | h <;> simp only [decryptAdvance, h]
  obtain ⟨hb, hd | hd | hd⟩ := hs
  · simp only [seqAdvance, hb, hd, Bool.not_true, Bool.false_eq_true, if_false]
  · simpa only [seqAdvance, hb, hd, Bool.not_true, Bool.false_eq_true, if_false] using hencrypt
  · simpa only [seqAdvance, hb, hd, Bool.not_true, Bool.false_eq_true, if_false] using hdecrypt

/-- The scratch with the bytes `t` put out so far, KPOS being their number. -/
def Scratch.kdfAt (c : Scratch) (ct : Word) (t stream digest : List Byte) : Scratch :=
  { c with ct := ct, kpos := t.length, t := t, stream := stream, digest := digest }

section
variable {P : Ports} {s : State}

/-- K_OUT with bytes still asked for. -/
theorem kdfAdvance_kOut {ct : Word} {t t' st digest : List Byte} (hlt : t.length < seqLen s)
    (ht' : t' = t ++ digest.take (min s.dlen (seqLen s - t.length)))
    (hlen : t'.length = t.length + min s.dlen (seqLen s - t.length)) :
    kdfAdvance P (s.toPhaseWith .kOut (s.scratch.kdfAt ct t st digest)) =
      if t'.length < seqLen s then s.toPhaseWith .kSeed (s.scratch.kdfAt (ct + 1) t' st digest)
      else kdfDone (s.toPhaseWith .kOut (s.scratch.kdfAt (ct + 1) t' st digest)) .kOut := by
  rw [Scratch.kdfAt, Scratch.kdfAt, hlen, ht']
  exact if_neg hlt.not_ge

variable (hs : UsesKdf s)
include hs

/-- The running command is still the one that uses the KDF machine, at every phase of the machine. -/
theorem seqAdvance_kdfAt {ph : Phase} (hph : ph ∈ kdfPhases) (ct : Word) (t st dg : List Byte) :
    seqAdvance P (s.toPhaseWith ph (s.scratch.kdfAt ct t st dg)) =
      kdfAdvance P (s.toPhaseWith ph (s.scratch.kdfAt ct t st dg)) :=
  seqAdvance_of_kdfPhases P hs hph

theorem seqAdvance_kSeed (ct : Word) (t st dg : List Byte) :
    seqAdvance P (s.toPhaseWith .kSeed (s.scratch.kdfAt ct t st dg)) =
      s.toPhaseWith .kCtr (s.scratch.kdfAt ct t (seqSeed s) dg) := by
  rw [seqAdvance_kdfAt hs (by decide)]
  rfl

theorem seqAdvance_kCtr (ct : Word) (t st dg : List Byte) :
    seqAdvance P (s.toPhaseWith .kCtr (s.scratch.kdfAt ct t st dg)) =
      s.toPhaseWith .kFin (s.scratch.kdfAt ct t (st ++ be32 ct.toNat) dg) := by
  rw [seqAdvance_kdfAt hs (by decide)]
  rfl

theorem seqAdvance_kFin (ct : Word) (t st dg : List Byte) :
    seqAdvance P (s.toPhaseWith .kFin (s.scratch.kdfAt ct t st dg)) =
      s.toPhaseWith .kOut (s.scratch.kdfAt ct t [] (s.hashWith P st)) := by
  rw [seqAdvance_kdfAt hs (by decide)]
  rfl

/-- K_SEED to K_OUT once: one request, its input the seed and the counter, and as much of its digest as is still asked
for. -/
theorem seqRun_request (hH : ∀ m, (s.hashWith P m).length = s.dlen) {ct : Word} {t st dg digest t' : List Byte}
    (hlt : t.length < seqLen s) (hdigest : digest = s.hashWith P (seqSeed s ++ be32 ct.toNat))
    (ht' : t' = t ++ digest.take (min s.dlen (seqLen s - t.length))) :
    seqRun P 4 (s.toPhaseWith .kSeed (s.scratch.kdfAt ct t st dg)) =
      if t'.length < seqLen s then s.toPhaseWith .kSeed (s.scratch.kdfAt (ct + 1) t' [] digest)
      else kdfDone (s.toPhaseWith .kOut (s.scratch.kdfAt (ct + 1) t' [] digest)) .kOut := by
  have hlen : t'.length = t.length + min s.dlen (seqLen s - t.length) := by
    rw [ht', List.length_append, List.length_take, hdigest, hH, Nat.min_eq_left (Nat.min_le_left _ _)]
  rw [seqRun, seqAdvance_kSeed hs, seqRun, seqAdvance_kCtr hs, seqRun, seqAdvance_kFin hs, seqRun, seqRun, ← hdigest,
    seqAdvance_kdfAt hs (by decide), kdfAdvance_kOut hlt ht' hlen]

variable (hH : ∀ m, (s.hashWith P m).length = s.dlen)
include hH

/-- The loop of R192 from K_SEED after `k` requests, up to K_DONE: it goes on while bytes are asked for, and what it has
put out is the keystream. -/
theorem seqRun_requests (hD : 1 ≤ s.dlen) (fuel : Nat) {k : Nat} (st dg : List Byte) (hlt : s.dlen * k < seqLen s)
    (hfuel : seqLen s ≤ fuel + s.dlen * k) :
    ∃ n ct digest,
      seqRun P n (s.toPhaseWith .kSeed (s.scratch.kdfAt (BitVec.ofNat 32 (1 + k))
        (Spec.keystream (s.hashWith P) s.dlen (seqSeed s) (s.dlen * k)) st dg)) =
      kdfDone (s.toPhaseWith .kOut (s.scratch.kdfAt ct
        (Spec.keystream (s.hashWith P) s.dlen (seqSeed s) (seqLen s)) [] digest)) .kOut := by
  induction fuel generalizing k st dg with
  | zero => omega
  | succ fuel ih =>
    have hround := seqRun_request hs hH (ct := BitVec.ofNat 32 (1 + k)) (st := st) (dg := dg)
      (t := Spec.keystream (s.hashWith P) s.dlen (seqSeed s) (s.dlen * k)) (by rwa [length_keystream]) rfl rfl
    rw [length_keystream, BitVec.toNat_ofNat, be32_mod, keystream_append_take hH (Nat.min_le_left _ _),
      length_keystream] at hround
    by_cases hmore : s.dlen * (k + 1) < seqLen s
    · rw [Nat.mul_succ] at hmore
      have hct : BitVec.ofNat 32 (1 + k) + 1 = BitVec.ofNat 32 (1 + (k + 1)) := (BitVec.ofNat_add (1 + k) 1).symm
      rw [Nat.min_eq_left (by omega), if_pos hmore, ← Nat.mul_succ, hct] at hround
      obtain ⟨n, ct, digest, hn⟩ := ih (k := k + 1) [] _ hmore (by rw [Nat.mul_succ]; omega)
      exact ⟨4 + n, ct, digest, by rw [seqRun_add, hround, hn]⟩
    · rw [Nat.mul_succ] at hmore
      rw [Nat.min_eq_right (by omega), Nat.add_sub_cancel' hlt.le, if_neg (lt_irrefl _)] at hround
      exact ⟨4, _, _, hround⟩

/-- R192 from K_INIT to K_DONE: the machine puts out the keystream. With nothing asked for, K_INIT itself is the last
phase. -/
theorem seqRun_kdf (hD : 1 ≤ s.dlen) (hph : s.phase = .kInit)
    (hok : runsKdf s = true → firstFault (kdfChecks s) = none) :
    ∃ n last ct st digest, (last = .kOut ∨ last = .kInit ∧ seqLen s = 0) ∧
      seqRun P n s = kdfDone (s.toPhaseWith last (s.scratch.kdfAt ct
        (kdf (s.hashWith P) (seqSeed s) (seqLen s)) st digest)) last := by
  have hbad : (runsKdf s && (firstFault (kdfChecks s)).isSome) = false := by
    cases h : runsKdf s with
    | false => rfl
    | true => rw [hok h]; rfl
  have hinit : kdfAdvance P s = if seqLen s = 0
      then kdfDone { s with scratch := s.scratch.kdfAt 1 [] s.scratch.stream s.scratch.digest } .kInit
      else s.toPhaseWith .kSeed (s.scratch.kdfAt 1 [] s.scratch.stream s.scratch.digest) := by
    simp only [kdfAdvance, hph, hbad]
    rfl
  have hedge : seqRun P 1 s = kdfAdvance P s := seqAdvance_of_kdfPhases P hs (by rw [hph]; decide)
  rw [hinit] at hedge
  rw [kdf_eq_keystream hH hD]
  by_cases hL : seqLen s = 0
  · refine ⟨1, .kInit, 1, s.scratch.stream, s.scratch.digest, .inr ⟨rfl, hL⟩, ?_⟩
    rw [hedge, if_pos hL, hL, State.toPhaseWith, ← hph]
    rfl
  · obtain ⟨n, ct, digest, hn⟩ := seqRun_requests hs hH hD (seqLen s) (k := 0) s.scratch.stream s.scratch.digest
      (by omega) (by omega)
    refine ⟨1 + n, .kOut, ct, [], digest, .inl rfl, ?_⟩
    rw [seqRun_add, hedge, if_neg hL]
    exact hn

end

/-! ### The standalone command (43_kdf.md R191) -/

theorem seqAtEnd_kInit {s : State} (hph : s.phase = .kInit) (hruns : runsKdf s = true)
    (h : (firstFault (kdfChecks s)).isSome = true ∨ seqLen s = 0) : seqAtEnd s = true := by
  simpa [seqAtEnd, hph, hruns] using h

theorem seqAtEnd_kOut {s : State} (hph : s.phase = .kOut) (hruns : runsKdf s = true)
    (h : seqLen s ≤ s.scratch.kpos) : seqAtEnd s = true := by
  simp [seqAtEnd, hph, hruns, h]

theorem seqFinish_of_kdf {s : State} (h : s.phase = .kOut ∨ s.phase = .kInit) :
    seqFinish s = s.guarded (kdfChecks s) (s.writeBuf .ks s.scratch.t).complete := by
  rcases h with h | h <;> simp only [seqFinish, h]

theorem firstPhase_of_kdf {w : Word} (h : decode w = .ok .kdf) : firstPhase w = .kInit := by
  rw [firstPhase, h]

theorem seqSeed_of_runsKdf {s : State} (h : runsKdf s = true) :
    seqSeed s = s.readBuf .seed s.regs.seedlen.toNat := if_pos h

theorem seqLen_of_runsKdf {s : State} (h : runsKdf s = true) : seqLen s = s.regs.kslen.toNat := if_pos h

theorem kdfDone_of_runsKdf {s : State} (h : runsKdf s = true) (last : Phase) (ct : Word) (t st digest : List Byte) :
    kdfDone (s.toPhaseWith last (s.scratch.kdfAt ct t st digest)) last =
      s.toPhaseWith last (s.scratch.kdfAt ct t st digest) :=
  if_pos h

/-- Settles O49: a failing check ends the walk at K_INIT; otherwise K_DONE is reached with the keystream in the
scratch. -/
theorem kdfPhasesReachItsMeaning : Obligations.KdfPhasesReachItsMeaning := by
  intro P s w hP hlegal hw
  have hd : decode (s.acceptWord w).fetch = .ok .kdf := hw
  have hruns : runsKdf (s.acceptWord w) = true := by rw [runsKdf, hd]
  have hinit : (s.acceptWord w).phase = .kInit := firstPhase_of_kdf hw
  cases hfault : firstFault (kdfChecks (s.acceptWord w)) with
  | some F =>
    refine ⟨0, seqAtEnd_kInit hinit hruns (.inl (Option.isSome_iff_exists.mpr ⟨F, hfault⟩)), ?_⟩
    rw [seqRun, seqFinish_of_kdf (.inr hinit), kdfWith, State.guarded_of_fault hfault, State.guarded_of_fault hfault]
  | none =>
    have hD : 1 ≤ (s.acceptWord w).dlen := Config.one_le_digestLen hlegal (firstFault_needHash.mp hfault).1
    obtain ⟨n, last, ct, st, digest, hlast, hn⟩ :=
      seqRun_kdf ⟨rfl, .inl hd⟩ (State.length_hashWith hP _) hD hinit fun _ => hfault
    rw [kdfDone_of_runsKdf hruns] at hn
    refine ⟨n, ?_, ?_⟩
    · rw [hn]
      rcases hlast with rfl | ⟨rfl, hL⟩
      · exact seqAtEnd_kOut rfl hruns (length_kdf (State.length_hashWith hP _) hD _).ge
      · exact seqAtEnd_kInit rfl hruns (.inr hL)
    · rw [hn, seqFinish_of_kdf (hlast.imp_right And.left), seqSeed_of_runsKdf hruns, seqLen_of_runsKdf hruns, kdfWith,
        State.guarded_of_none hfault]
      exact State.guarded_of_none hfault

end Sys2Proof.Machine

namespace Sys2Proof.Machine

/-! ## The first byte of a big-endian string and the range of its value (00_scope.md R11) -/

theorem os2ip_cons (b : Byte) (s : List Byte) : os2ip (b :: s) = b.toNat * 256 ^ s.length + os2ip s := by
  induction s using List.reverseRecOn with
  | nil => simp [os2ip]
  | append_singleton s c ih =>
    rw [← List.cons_append, os2ip_snoc, ih, os2ip_snoc, List.length_append, List.length_singleton]
    ring

theorem os2ip_zero_cons (s : List Byte) : os2ip (0 :: s) = os2ip s := by
  simp [os2ip_cons]

/-- Strings of one length that stand for the same number are equal. -/
theorem eq_of_os2ip_eq {s t : List Byte} (hlen : s.length = t.length) (h : os2ip s = os2ip t) : s = t := by
  rw [← i2osp_os2ip s, ← i2osp_os2ip t, hlen, h]

theorem ne_nil_of_os2ip_pos {s : List Byte} (h : 0 < os2ip s) : s ≠ [] := by
  rintro rfl
  exact absurd h (by simp)

section
variable {s : List Byte} (hs : s ≠ [])
include hs

theorem headD_ne_zero_iff : s.headD 0 ≠ 0 ↔ 256 ^ (s.length - 1) ≤ os2ip s := by
  obtain ⟨b, t, rfl⟩ := List.exists_cons_of_ne_nil hs
  rw [List.length_cons, Nat.add_sub_cancel, List.headD_cons]
  constructor
  · intro hb
    rw [os2ip_cons]
    have hpos : 0 < b.toNat := Nat.pos_of_ne_zero fun h => hb (BitVec.eq_of_toNat_eq h)
    exact (Nat.le_mul_of_pos_left _ hpos).trans (Nat.le_add_right _ _)
  · rintro hle rfl
    rw [os2ip_zero_cons] at hle
    exact hle.not_gt (os2ip_lt t)

/-- The top bit of the first byte says in which half of its range the value lies. -/
theorem headD_lt_half_iff : (s.headD 0).toNat < 0x80 ↔ 2 * os2ip s < 256 ^ s.length := by
  obtain ⟨b, t, rfl⟩ := List.exists_cons_of_ne_nil hs
  have ht := os2ip_lt t
  rw [os2ip_cons, List.length_cons, Nat.pow_succ, List.headD_cons]
  generalize 256 ^ t.length = U at ht ⊢
  constructor
  · intro hb
    have := Nat.mul_le_mul_right U (Nat.le_of_lt_succ hb : b.toNat ≤ 127)
    omega
  · intro hlt
    by_contra hb
    have := Nat.mul_le_mul_right U (not_lt.mp hb)
    omega

end

/-! ## Length bytes (44_codec.md R201) -/

theorem lenEnc_of_lt {n : Nat} (h : n < 128) : lenEnc n = [BitVec.ofNat 8 n] := if_pos h

/-- R201's rows of the long form as one: the count byte, then the length in as many bytes as it takes. -/
theorem lenEnc_of_ge {n k : Nat} (h : 128 ≤ n) (hk : k < 4) (hlo : 256 ^ k ≤ n) (hhi : n < 256 ^ (k + 1)) :
    lenEnc n = BitVec.ofNat 8 (0x80 + (k + 1)) :: i2osp n (k + 1) := by
  rw [lenEnc, if_neg h.not_gt]
  interval_cases k
  · exact if_pos (by omega)
  · exact (if_neg (by omega)).trans (if_pos (by omega))
  · exact (if_neg (by omega)).trans ((if_neg (by omega)).trans (if_pos (by omega)))
  · exact (if_neg (by omega)).trans ((if_neg (by omega)).trans (if_neg (by omega)))

/-- The shortest form of a length is what the encoder writes; four bytes bound it. -/
theorem isLength_iff {n : Nat} {l : List Byte} : Spec.IsLength n l ↔ n < 2 ^ 32 ∧ l = lenEnc n := by
  constructor
  · rintro (⟨h, rfl⟩ | ⟨h, m, rfl, hm, hn, hhead⟩)
    · exact ⟨by omega, (lenEnc_of_lt h).symm⟩
    · have hne : m ≠ [] := ne_nil_of_os2ip_pos (by omega)
      have hpos : m.length - 1 + 1 = m.length := Nat.sub_add_cancel (List.length_pos_of_ne_nil hne)
      have hlt : n < 256 ^ m.length := hn ▸ os2ip_lt m
      have hlo : 256 ^ (m.length - 1) ≤ n := hn ▸ (headD_ne_zero_iff hne).mp hhead
      refine ⟨hlt.trans_le ((Nat.pow_le_pow_right (by norm_num) hm).trans (by norm_num)), ?_⟩
      rw [lenEnc_of_ge h (by omega) hlo (by rwa [hpos]), hpos, ← hn, i2osp_os2ip]
  · rintro ⟨hlt, rfl⟩
    rcases Nat.lt_or_ge n 128 with h | h
    · exact .inl ⟨h, lenEnc_of_lt h⟩
    · have hlo : 256 ^ Nat.log 256 n ≤ n := Nat.pow_log_le_self 256 (by omega)
      have hhi : n < 256 ^ (Nat.log 256 n + 1) := Nat.lt_pow_succ_log_self (by norm_num) n
      have hk : Nat.log 256 n < 4 := Nat.log_lt_of_lt_pow (by omega) (by omega)
      have hn : os2ip (i2osp n (Nat.log 256 n + 1)) = n := by rw [os2ip_i2osp, Nat.mod_eq_of_lt hhi]
      refine .inr ⟨h, i2osp n (Nat.log 256 n + 1), ?_, by simpa using hk, hn, ?_⟩
      · rw [length_i2osp, lenEnc_of_ge h hk hlo hhi]
      · rw [headD_ne_zero_iff (ne_nil_of_os2ip_pos (by omega)), hn, length_i2osp]
        exact hlo

theorem lenEnc_ne_nil (n : Nat) : lenEnc n ≠ [] := by
  unfold lenEnc; split_ifs <;> simp

theorem lenlen_le (n : Nat) : lenlen n ≤ 5 := by
  unfold lenlen; split_ifs <;> omega

theorem isLength_lenEnc {n : Nat} (h : n < 2 ^ 32) : Spec.IsLength n (lenEnc n) := isLength_iff.mpr ⟨h, rfl⟩

/-- The count in a first length byte of the long form (R210). -/
theorem toNat_and_count (b : Byte) : (b &&& 0x7F).toNat = b.toNat % 128 :=
  (BitVec.toNat_and b 0x7F).trans (Nat.and_two_pow_sub_one_eq_mod b.toNat 7)

section
variable {b : Byte} {rest after : List Byte} {n : Nat}

/-- The checks of R210 on the length bytes leave only those of R201. -/
theorem isLength_of_readLen (h : readLen b rest = some (n, after)) : ∃ l, Spec.IsLength n l ∧ b :: rest = l ++ after := by
  have hb := b.isLt
  by_cases hshort : b < 0x80
  · rw [readLen, if_pos hshort, Option.some.injEq, Prod.mk.injEq] at h
    obtain ⟨rfl, rfl⟩ := h
    exact ⟨[b], .inl ⟨hshort, by simp⟩, rfl⟩
  · simp only [readLen, if_neg hshort, Option.ite_none_left_eq_some, Option.some.injEq, Prod.mk.injEq, not_or,
      not_and, not_lt, toNat_and_count] at h
    obtain ⟨⟨hk0, hk4⟩, hlen, hlong, hlo, rfl, rfl⟩ := h
    have hge : 0x80 ≤ b.toNat := not_lt.mp hshort
    have hm : (rest.take (b.toNat % 128)).length = b.toNat % 128 := List.length_take_of_le hlen
    refine ⟨b :: rest.take (b.toNat % 128), .inr ⟨hlong, _, ?_, by omega, rfl, ?_⟩, by simp⟩
    · congr 1
      exact BitVec.eq_of_toNat_eq (by rw [hm, BitVec.toNat_ofNat]; omega)
    · rw [headD_ne_zero_iff (ne_nil_of_os2ip_pos (by omega)), hm]
      rcases Nat.lt_or_ge 1 (b.toNat % 128) with h1 | h1
      · simpa [Nat.pow_mul] using hlo h1
      · rw [show b.toNat % 128 - 1 = 0 by omega]
        omega

theorem readLen_of_isLength : (∃ l, Spec.IsLength n l ∧ b :: rest = l ++ after) → readLen b rest = some (n, after) := by
  rintro ⟨l, ⟨hn, rfl⟩ | ⟨hn, m, rfl, hm, hos, hhead⟩, heq⟩
  · rw [List.singleton_append, List.cons_eq_cons] at heq
    obtain ⟨rfl, rfl⟩ := heq
    have hval : (BitVec.ofNat 8 n).toNat = n := by rw [BitVec.toNat_ofNat]; omega
    have hshort : BitVec.ofNat 8 n < 0x80 := show (BitVec.ofNat 8 n).toNat < 128 by omega
    rw [readLen, if_pos hshort, hval]
  · rw [List.cons_append, List.cons_eq_cons] at heq
    obtain ⟨rfl, rfl⟩ := heq
    have hne : m ≠ [] := ne_nil_of_os2ip_pos (by omega)
    have hpos := List.length_pos_of_ne_nil hne
    have hval : (BitVec.ofNat 8 (0x80 + m.length)).toNat = 0x80 + m.length := by rw [BitVec.toNat_ofNat]; omega
    have hlong : ¬BitVec.ofNat 8 (0x80 + m.length) < 0x80 :=
      show ¬(BitVec.ofNat 8 (0x80 + m.length)).toNat < 128 by omega
    have hcount : (0x80 + m.length) % 128 = m.length := by omega
    have hlo := (headD_ne_zero_iff hne).mp hhead
    simp only [readLen, if_neg hlong, Option.ite_none_left_eq_some, toNat_and_count, hval, hcount,
      List.take_left, List.drop_left, hos, not_or, not_and, not_lt, List.length_append, and_true]
    refine ⟨by omega, by omega, hn, fun _ => ?_⟩
    rwa [Nat.pow_mul, ← hos]

theorem readLen_eq_some_iff : readLen b rest = some (n, after) ↔ ∃ l, Spec.IsLength n l ∧ b :: rest = l ++ after :=
  ⟨isLength_of_readLen, readLen_of_isLength⟩

end

/-! ## Integer contents (44_codec.md R202, R212) -/

/-- The shortest content in terms of its value: the top bit is clear, and with one byte less it would not be. -/
theorem isInteger_iff {v : Nat} {X : List Byte} : Spec.IsInteger v X ↔
    os2ip X = v ∧ X ≠ [] ∧ 2 * v < 256 ^ X.length ∧ (1 < X.length → 256 ^ (X.length - 1) ≤ 2 * v) := by
  unfold Spec.IsInteger
  refine and_congr_right fun hv => and_congr_right fun hne => ?_
  subst hv
  refine and_congr (headD_lt_half_iff hne) (imp_congr_right fun hlen => ?_)
  obtain ⟨a, t, rfl⟩ := List.exists_cons_of_ne_nil hne
  have ht : t ≠ [] := List.ne_nil_of_length_pos (by simpa using hlen)
  have htop : 0x80 ≤ ((a :: t).getD 1 0).toNat ↔ 256 ^ t.length ≤ 2 * os2ip t := by
    obtain ⟨c, u, rfl⟩ := List.exists_cons_of_ne_nil ht
    exact not_lt.symm.trans ((headD_lt_half_iff ht).not.trans not_lt)
  rw [htop, List.headD_cons, List.length_cons, Nat.add_sub_cancel]
  by_cases ha : a = 0
  · rw [ha, os2ip_zero_cons]
    exact forall_prop_of_true rfl
  · have hlead := (headD_ne_zero_iff hne).mp ha
    rw [List.length_cons, Nat.add_sub_cancel] at hlead
    exact ⟨fun _ => by omega, fun _ h0 => absurd h0 ha⟩

end Sys2Proof.Machine

namespace Sys2Proof.Spec.IsInteger

open Sys2Proof.Machine

section
variable {v F : Nat} {X Y : List Byte} (hX : IsInteger v X)
include hX

theorem length_le_of_lt_pow (hF : 1 ≤ F) (h : 2 * v < 256 ^ F) : X.length ≤ F := by
  obtain ⟨-, -, -, hmin⟩ := isInteger_iff.mp hX
  by_contra hlt
  have hpow : 256 ^ F ≤ 256 ^ (X.length - 1) := Nat.pow_le_pow_right (by norm_num) (by omega)
  have := hmin (by omega)
  omega

theorem length_le_length (hY : IsInteger v Y) : X.length ≤ Y.length := by
  obtain ⟨-, hne, htop, -⟩ := isInteger_iff.mp hY
  exact hX.length_le_of_lt_pow (List.length_pos_of_ne_nil hne) htop

theorem os2ip_eq : os2ip X = v := hX.1

/-- A number has one shortest content. -/
theorem unique (hY : IsInteger v Y) : X = Y :=
  eq_of_os2ip_eq ((hX.length_le_length hY).antisymm (hY.length_le_length hX)) (hX.os2ip_eq.trans hY.os2ip_eq.symm)

variable (hv : v < 256 ^ F)
include hv

theorem length_le : X.length ≤ F + 1 :=
  hX.length_le_of_lt_pow (by omega) (by rw [Nat.pow_succ]; omega)

/-- The pad byte is there exactly when the value has the top bit of its F bytes set. -/
theorem length_eq_iff (hF : 1 ≤ F) : X.length = F + 1 ↔ 256 ^ F ≤ 2 * v := by
  obtain ⟨-, -, htop, hmin⟩ := isInteger_iff.mp hX
  constructor
  · intro hlen
    simpa [hlen] using hmin (by omega)
  · intro hle
    refine (hX.length_le hv).antisymm (Nat.succ_le_of_lt ?_)
    by_contra hlt
    have := Nat.pow_le_pow_right (show 0 < 256 by norm_num) (not_lt.mp hlt)
    omega

end

end Sys2Proof.Spec.IsInteger

namespace Sys2Proof.Machine

theorem os2ip_dropWhile_zero (s : List Byte) : os2ip (s.dropWhile (· == 0)) = os2ip s := by
  induction s with
  | nil => rfl
  | cons b s ih =>
    by_cases hb : b = 0
    · rw [hb, List.dropWhile_cons_of_pos rfl, ih, os2ip_zero_cons]
    · rw [List.dropWhile_cons_of_neg (by rwa [beq_iff_eq])]

theorem headD_dropWhile_zero_ne {s : List Byte} (h : os2ip s ≠ 0) : (s.dropWhile (· == 0)).headD 0 ≠ 0 := by
  induction s with
  | nil => exact absurd rfl h
  | cons b s ih =>
    by_cases hb : b = 0
    · rw [hb, os2ip_zero_cons] at h
      rw [hb, List.dropWhile_cons_of_pos rfl]
      exact ih h
    · rwa [List.dropWhile_cons_of_neg (by rwa [beq_iff_eq])]

/-- R202's pad byte, where the first byte is not zero. -/
theorem isInteger_pad {s : List Byte} (h : s.headD 0 ≠ 0) :
    Spec.IsInteger (os2ip s) (if s.headD 0 ≥ 0x80 then 0 :: s else s) := by
  cases s with
  | nil => exact absurd rfl h
  | cons b t =>
    rw [List.headD_cons] at h ⊢
    split
    · next hb => exact ⟨os2ip_zero_cons _, by simp, by simp, fun _ _ => hb⟩
    · next hb => exact ⟨rfl, by simp, not_le.mp hb, fun _ h0 => absurd h0 h⟩

/-- The encoder writes the shortest content. -/
theorem isInteger_intContent {F v : Nat} (hv : v < 256 ^ F) : Spec.IsInteger v (intContent F v) := by
  rw [intContent]
  split
  · next h => exact ⟨h.symm, by simp, by simp, by simp⟩
  · next h =>
    have hval : os2ip (i2osp v F) = v := by rw [os2ip_i2osp, Nat.mod_eq_of_lt hv]
    have hpad := isInteger_pad (headD_dropWhile_zero_ne (hval.trans_ne h))
    rwa [os2ip_dropWhile_zero, hval] at hpad

/-- R212's checks accept the shortest contents of field-sized numbers, and nothing else. -/
theorem decodeInt_eq_some_iff {F v : Nat} {s : List Byte} :
    decodeInt F s = some v ↔ Spec.IsInteger v s ∧ v < 256 ^ F := by
  constructor
  · intro h
    refine ⟨?_, decodeInt_lt h⟩
    simp only [decodeInt, Option.ite_none_left_eq_some, Option.some.injEq] at h
    obtain ⟨hne, htop, hmin, -, -, hv⟩ := h
    exact ⟨hv, fun hnil => hne (by simp [hnil]), not_le.mp htop,
      fun hlen h0 => not_lt.mp fun hlt => hmin ⟨hlen, h0, hlt⟩⟩
  · rintro ⟨hs, hv⟩
    obtain ⟨rfl, hne, htop, hmin⟩ := id hs
    have hlead (hlen : s.length = F + 1) : s.headD 0 = 0 := by
      by_contra h0
      have := (headD_ne_zero_iff hne).mp h0
      rw [hlen, Nat.add_sub_cancel] at this
      exact this.not_gt hv
    simp only [decodeInt, Option.ite_none_left_eq_some, and_true]
    exact ⟨by simpa using hne, not_le.mpr htop, fun ⟨hlen, h0, hlt⟩ => (hmin hlen h0).not_gt hlt,
      (hs.length_le hv).not_gt, fun ⟨hlen, h0⟩ => h0 (hlead hlen)⟩

/-- R212, first law. -/
theorem decodeInt_intContent {F v : Nat} (hv : v < 256 ^ F) : decodeInt F (intContent F v) = some v :=
  decodeInt_eq_some_iff.mpr ⟨isInteger_intContent hv, hv⟩

/-- R212, second law. -/
theorem intContent_of_decodeInt {F v : Nat} {s : List Byte} (h : decodeInt F s = some v) : intContent F v = s := by
  obtain ⟨hs, hv⟩ := decodeInt_eq_some_iff.mp h
  exact (isInteger_intContent hv).unique hs

end Sys2Proof.Machine

namespace Sys2Proof.Machine

/-! ## Framing (44_codec.md R200, R203, R210, R211) -/

/-- ReadTLV reads exactly the TLVs the encoder writes. -/
theorem readTLV_eq_some_iff {tag : Byte} {buf c after : List Byte} :
    readTLV tag buf = some (c, after) ↔ c.length < 2 ^ 32 ∧ buf = tlv tag c ++ after := by
  constructor
  · intro h
    match buf with
    | [] | [_] => simp [readTLV] at h
    | t :: b :: rest =>
      rw [readTLV, Option.ite_none_left_eq_some, not_not] at h
      obtain ⟨rfl, h⟩ := h
      split at h
      · simp at h
      · next n after' hread =>
        rw [Option.ite_none_left_eq_some, Option.some.injEq, Prod.mk.injEq, not_lt] at h
        obtain ⟨hn, rfl, rfl⟩ := h
        obtain ⟨l, hl, hsplit⟩ := readLen_eq_some_iff.mp hread
        obtain ⟨hlt, rfl⟩ := isLength_iff.mp hl
        rw [tlv, List.length_take_of_le hn, hsplit]
        exact ⟨hlt, by simp⟩
  · rintro ⟨hlt, rfl⟩
    obtain ⟨b, m, hm⟩ := List.exists_cons_of_ne_nil (lenEnc_ne_nil c.length)
    have hread : readLen b (m ++ (c ++ after)) = some (c.length, c ++ after) :=
      readLen_eq_some_iff.mpr ⟨_, isLength_lenEnc hlt, by rw [hm, List.cons_append]⟩
    simp [tlv, hm, readTLV, hread]

/-- The four fields back to back: the container's content (R200). -/
def RawRecord.content (r : RawRecord) : List Byte :=
  tlv tagInteger r.xb ++ tlv tagInteger r.yb ++ tlv tagOctets r.tb ++ tlv tagOctets r.bb

theorem RawRecord.content_eq (r : RawRecord) : r.content = [0x02] ++ lenEnc r.xb.length ++ r.xb ++ [0x02] ++
    lenEnc r.yb.length ++ r.yb ++ [0x04] ++ lenEnc r.tb.length ++ r.tb ++ [0x04] ++ lenEnc r.bb.length ++ r.bb := by
  simp [content, tlv, tagInteger, tagOctets]

theorem tlv_sequence_eq (c : List Byte) : tlv tagSequence c = [0x30] ++ lenEnc c.length ++ c := rfl

theorem encodeRecord_eq (F x1 y1 : Nat) (tag body : List Byte) : encodeRecord F x1 y1 tag body =
    tlv tagSequence (RawRecord.content ⟨intContent F x1, intContent F y1, tag, body⟩) := rfl

theorem RawRecord.length_content (r : RawRecord) : r.content.length =
    (1 + lenlen r.xb.length + r.xb.length) + (1 + lenlen r.yb.length + r.yb.length) +
      (1 + lenlen r.tb.length + r.tb.length) + (1 + lenlen r.bb.length + r.bb.length) := by
  simp only [content, List.length_append, length_tlv]

/-- The framing of a field takes at most 6 bytes. -/
theorem RawRecord.length_content_le (r : RawRecord) :
    r.content.length ≤ r.xb.length + r.yb.length + r.tb.length + r.bb.length + 24 := by
  have hx := lenlen_le r.xb.length
  have hy := lenlen_le r.yb.length
  have ht := lenlen_le r.tb.length
  have hb := lenlen_le r.bb.length
  rw [length_content]
  omega

/-- Each field is shorter than the container that holds it. -/
theorem RawRecord.field_lengths (r : RawRecord) : r.xb.length < r.content.length ∧ r.yb.length < r.content.length ∧
    r.tb.length < r.content.length ∧ r.bb.length < r.content.length := by
  rw [length_content]
  omega

/-- ParseStructure accepts exactly the byte strings framed as a record. -/
theorem parseStructure_eq_some_iff {buf : List Byte} {r : RawRecord} :
    parseStructure buf = some r ↔ r.content.length < 2 ^ 32 ∧ buf = tlv tagSequence r.content := by
  constructor
  · intro h
    simp only [parseStructure] at h
    split at h
    · next content hc =>
      obtain ⟨hlt, rfl⟩ := readTLV_eq_some_iff.mp hc
      split at h
      · simp at h
      · next xb r1 hx =>
        split at h
        · simp at h
        · next yb r2 hy =>
          split at h
          · simp at h
          · next tb r3 ht =>
            split at h
            · next bb hb =>
              obtain ⟨-, rfl⟩ := readTLV_eq_some_iff.mp hx
              obtain ⟨-, rfl⟩ := readTLV_eq_some_iff.mp hy
              obtain ⟨-, rfl⟩ := readTLV_eq_some_iff.mp ht
              obtain ⟨-, rfl⟩ := readTLV_eq_some_iff.mp hb
              obtain rfl := Option.some.inj h
              simpa [RawRecord.content] using hlt
            · simp at h
    · simp at h
  · rintro ⟨hlt, rfl⟩
    obtain ⟨hx, hy, ht, hb⟩ := r.field_lengths
    have hread {tag : Byte} {c : List Byte} (hc : c.length < r.content.length) (after : List Byte) :
        readTLV tag (tlv tag c ++ after) = some (c, after) := readTLV_eq_some_iff.mpr ⟨hc.trans hlt, rfl⟩
    have hseq : readTLV tagSequence (tlv tagSequence r.content) = some (r.content, []) :=
      readTLV_eq_some_iff.mpr ⟨hlt, (List.append_nil _).symm⟩
    have hbody := hread (tag := tagOctets) hb []
    rw [List.append_nil] at hbody
    simp only [parseStructure, hseq]
    simp only [RawRecord.content, List.append_assoc, hread hx, hread hy, hread ht, hbody]

/-! ## Accepted records (44_codec.md R213) -/

theorem recordFits_iff {D : Nat} {ne : Bool} {r : RawRecord} :
    recordFits D ne r = true ↔ r.tb.length = D ∧ (ne = true → r.bb ≠ []) := by
  cases ne <;> simp [recordFits]

theorem plainLen_eq_some_iff {buf : List Byte} {D L : Nat} {ne : Bool} : plainLen buf D ne = some L ↔
    ∃ r, parseStructure buf = some r ∧ recordFits D ne r = true ∧ r.bb.length = L := by
  rw [plainLen]
  split
  · next h => simp [h]
  · next r h => simp [h]

theorem decodeRecord_eq_some_iff {F D : Nat} {buf : List Byte} {ne : Bool} {r : Record} :
    decodeRecord F buf D ne = some r ↔ ∃ X Y, parseStructure buf = some ⟨X, Y, r.tag, r.body⟩ ∧
      recordFits D ne ⟨X, Y, r.tag, r.body⟩ = true ∧ decodeInt F X = some r.x1 ∧ decodeInt F Y = some r.y1 := by
  constructor
  · intro h
    simp only [decodeRecord] at h
    split at h
    · simp at h
    · next raw hraw =>
      rw [Option.ite_none_left_eq_some, Bool.not_eq_true', Bool.not_eq_false] at h
      obtain ⟨hfits, h⟩ := h
      split at h
      · next x1 y1 hx hy =>
        obtain rfl := Option.some.inj h
        exact ⟨raw.xb, raw.yb, hraw, hfits, hx, hy⟩
      · simp at h
  · rintro ⟨X, Y, hraw, hfits, hx, hy⟩
    simp [decodeRecord, hraw, hfits, hx, hy]

/-- The body is part of the record. -/
theorem plainLen_le {buf : List Byte} {D L : Nat} {ne : Bool} (h : plainLen buf D ne = some L) : L ≤ buf.length := by
  obtain ⟨r, hr, -, rfl⟩ := plainLen_eq_some_iff.mp h
  obtain ⟨-, rfl⟩ := parseStructure_eq_some_iff.mp hr
  obtain ⟨-, -, -, hb⟩ := r.field_lengths
  rw [length_tlv]
  omega

/-- Settles O44: the parser reads back exactly what the framing writes, and a number has one shortest content. -/
theorem acceptedRecordsAreCanonical : Obligations.AcceptedRecordsAreCanonical := by
  refine ⟨fun F D ne buf r _ h => ?_, fun D L ne buf => ?_⟩
  · obtain ⟨X, Y, hparse, hfits, hX, hY⟩ := decodeRecord_eq_some_iff.mp h
    obtain ⟨-, rfl⟩ := parseStructure_eq_some_iff.mp hparse
    obtain ⟨htag, hne⟩ := recordFits_iff.mp hfits
    refine ⟨?_, htag, decodeInt_lt hX, decodeInt_lt hY, hne⟩
    rw [encodeRecord_eq, intContent_of_decodeInt hX, intContent_of_decodeInt hY]
  · rw [plainLen_eq_some_iff]
    constructor
    · rintro ⟨r, hparse, hfits, rfl⟩
      obtain ⟨hlt, rfl⟩ := parseStructure_eq_some_iff.mp hparse
      obtain ⟨htag, hne⟩ := recordFits_iff.mp hfits
      obtain ⟨hx, hy, ht, hb⟩ := r.field_lengths
      refine ⟨r.xb, r.yb, r.tb, r.bb, _, _, _, _, lenEnc r.content.length, isLength_lenEnc (hx.trans hlt),
        isLength_lenEnc (hy.trans hlt), isLength_lenEnc (ht.trans hlt), isLength_lenEnc (hb.trans hlt), ?_⟩
      rw [← r.content_eq]
      exact ⟨isLength_lenEnc hlt, tlv_sequence_eq _, htag, rfl, by simpa using hne⟩
    · rintro ⟨X, Y, tag, body, lx, ly, lt, lb, lc, hx, hy, ht, hb, hc, rfl, htag, rfl, hne⟩
      obtain ⟨-, rfl⟩ := isLength_iff.mp hx
      obtain ⟨-, rfl⟩ := isLength_iff.mp hy
      obtain ⟨-, rfl⟩ := isLength_iff.mp ht
      obtain ⟨-, rfl⟩ := isLength_iff.mp hb
      rw [← RawRecord.content_eq ⟨X, Y, tag, body⟩] at hc ⊢
      obtain ⟨hlt, rfl⟩ := isLength_iff.mp hc
      exact ⟨⟨X, Y, tag, body⟩, parseStructure_eq_some_iff.mpr ⟨hlt, (tlv_sequence_eq _).symm⟩,
        recordFits_iff.mpr ⟨htag, by simpa using hne⟩, rfl⟩

/-- Settles O43: the encoder frames the shortest contents, and the parser reads the framing back. -/
theorem encodedRecordHasItsLayoutAndDecodes : Obligations.EncodedRecordHasItsLayoutAndDecodes := by
  intro F x1 y1 tag body _ hF hx1 hy1 htag hbody
  have hX := length_intContent_le F x1
  have hY := length_intContent_le F y1
  have hencode := encodeRecord_eq F x1 y1 tag body
  set r : RawRecord := ⟨intContent F x1, intContent F y1, tag, body⟩
  have hlt : r.content.length < 2 ^ 32 := by
    have hle : r.content.length ≤
        (intContent F x1).length + (intContent F y1).length + tag.length + body.length + 24 := r.length_content_le
    omega
  have hparse := parseStructure_eq_some_iff.mpr ⟨hlt, rfl⟩
  have hfits : recordFits tag.length false r = true := recordFits_iff.mpr ⟨rfl, by simp⟩
  obtain ⟨hx, hy, ht, hb⟩ := r.field_lengths
  rw [hencode]
  refine ⟨⟨_, _, _, _, _, _, lenEnc r.content.length, isInteger_intContent hx1, hX, isInteger_intContent hy1, hY,
    isLength_lenEnc (hx.trans hlt), isLength_lenEnc (hy.trans hlt), isLength_lenEnc (ht.trans hlt),
    isLength_lenEnc (hb.trans hlt), ?_⟩, ?_, ?_⟩
  · rw [← r.content_eq]
    exact ⟨isLength_lenEnc hlt, tlv_sequence_eq _⟩
  · exact decodeRecord_eq_some_iff.mpr ⟨_, _, hparse, hfits, decodeInt_intContent hx1, decodeInt_intContent hy1⟩
  · exact plainLen_eq_some_iff.mpr ⟨r, hparse, hfits, rfl⟩

/-! ## Sizes (44_codec.md R206, R208) -/

/-! A TLV's length grows strictly with its content's (R203). -/

theorem tlvLength_mono {m n : Nat} (h : m ≤ n) : 1 + lenlen m + m ≤ 1 + lenlen n + n := by
  have := lenlen_mono h
  omega

theorem tlvLength_inj {m n : Nat} : 1 + lenlen m + m = 1 + lenlen n + n ↔ m = n := by
  refine ⟨fun h => ?_, fun h => by rw [h]⟩
  rcases Nat.le_total m n with hle | hle <;> have := lenlen_mono hle <;> omega

theorem wcs_mono {F D D' L L' : Nat} (hD : D ≤ D') (hL : L ≤ L') : wcs F D L ≤ wcs F D' L' := by
  have hD' := tlvLength_mono hD
  have hL' := tlvLength_mono hL
  rw [wcs, wcs]
  exact tlvLength_mono (by omega)

/-- Settles O45: the container's content is as long as WCS allows exactly when both integers are, and an integer is so
exactly when its top bit is set. -/
theorem recordSizeIsBoundedByWcs : Obligations.RecordSizeIsBoundedByWcs := by
  intro F x1 y1 tag body hF hx1 hy1
  have hX := isInteger_intContent hx1
  have hY := isInteger_intContent hy1
  have hx := tlvLength_mono (hX.length_le hx1)
  have hy := tlvLength_mono (hY.length_le hy1)
  refine ⟨length_encodeRecord_le le_rfl le_rfl, ?_⟩
  rw [← hX.length_eq_iff hx1 hF, ← hY.length_eq_iff hy1 hF, encodeRecord_eq, length_tlv, wcs,
    tlvLength_inj, RawRecord.length_content, ← tlvLength_inj (m := (intContent F x1).length),
    ← tlvLength_inj (m := (intContent F y1).length)]
  dsimp only
  omega

end Sys2Proof.Machine

namespace Sys2Proof.Machine

/-! ## The commands of the codec (44_codec.md R207, R209, R214, R215) -/

section
variable {s : State} {l : List (Bool × CmdFault)}

theorem firstFault_needMsgLen_fails (hlen : s.regs.msglen.toNat > s.cfg.msgCap) :
    firstFault (needMsgLen s :: l) = some .invalidLength := by
  rw [needMsgLen, decide_eq_true hlen, firstFault_cons_bad]

theorem firstFault_needRecLen_fails (hlen : s.regs.reclen.toNat > s.cfg.recCap) :
    firstFault (needRecLen s :: l) = some .invalidLength := by
  rw [needRecLen, decide_eq_true hlen, firstFault_cons_bad]

theorem firstFault_needRecLen_holds (hlen : s.regs.reclen.toNat ≤ s.cfg.recCap) :
    firstFault (needRecLen s :: l) = firstFault l := by
  rw [needRecLen, decide_eq_false (not_lt.mpr hlen), firstFault_cons_good]

variable (hh : s.hsel < s.cfg.nhash)
include hh

theorem firstFault_msgChecks_fails (hlen : s.regs.msglen.toNat > s.cfg.msgCap) :
    firstFault [needHash s, needMsgLen s] = some .invalidLength :=
  (firstFault_needHash_holds hh _).trans (firstFault_needMsgLen_fails hlen)

theorem firstFault_msgChecks_holds (hlen : s.regs.msglen.toNat ≤ s.cfg.msgCap) :
    firstFault [needHash s, needMsgLen s] = none :=
  (firstFault_needHash_holds hh _).trans (firstFault_needMsgLen.mpr ⟨hlen, firstFault_nil⟩)

theorem firstFault_recChecks_fails (hlen : s.regs.reclen.toNat > s.cfg.recCap) :
    firstFault [needHash s, needRecLen s] = some .invalidLength :=
  (firstFault_needHash_holds hh _).trans (firstFault_needRecLen_fails hlen)

theorem firstFault_recChecks_holds (hlen : s.regs.reclen.toNat ≤ s.cfg.recCap) :
    firstFault [needHash s, needRecLen s] = none :=
  (firstFault_needHash_holds hh _).trans (firstFault_needRecLen_holds hlen)

end

/-! ### RENC (44_codec.md R209) -/

theorem storeResult_putRecord {s : State} (hwf : s.mem.wf = true) (r : List Byte) :
    StoreResult s (s.putRecord r).complete Buffer.record.base r
      { s.regs with reclen := (s.putRecord r).complete.regs.reclen } :=
  ⟨endsOk_complete rfl rfl rfl rfl, ⟨rfl, rfl, rfl, rfl⟩, rfl, rfl, rfl, rfl, rfl,
    fun a => Memory.read_writeBytes s.mem Buffer.record.base r a hwf⟩

/-- Settles O20: the two checks in their order, and a record for a legal message fits in REC. -/
theorem rencStoresTheRecord : Obligations.RencStoresTheRecord := by
  intro ra rb s
  refine ⟨decode_encode (.renc ra rb) rfl, fun hh => ⟨_, rfl, faultsWith_guarded (firstFault_needHash_fails hh _)⟩,
    fun hh hlen => ⟨_, rfl, faultsWith_guarded (firstFault_msgChecks_fails hh hlen)⟩, fun ⟨hs, hwf, _⟩ hh hlen => ?_⟩
  intro r
  have hfit : r.length ≤ s.cfg.recCap := length_encodeRecord_le_recCap hs
    (by simpa using Config.digestLen_le hs s.hsel) (by simpa using hlen)
  obtain ⟨-, -, -, -, -, hcap⟩ := hs
  have hexec : exec (.renc ra rb) s = .next (s.putRecord r).complete :=
    congrArg Host.Outcome.next (State.guarded_of_none (firstFault_msgChecks_holds hh hlen))
  have hreclen : (s.putRecord r).complete.regs.reclen.toNat = r.length := Nat.mod_eq_of_lt (by omega)
  exact ⟨hfit, _, hexec, hreclen, storeResult_putRecord hwf r⟩

/-! ### RDEC (44_codec.md R214) -/

section
variable {s : State} {rd ra : FReg} (hne : rd ≠ ra)
include hne

theorem exec_rdec : exec (.rdec rd ra) s = .next (s.guarded [needHash s, needRecLen s]
    (match decodeRecord s.cfg.flen s.recordBytes s.dlen s.ctrl.noempty with
      | none => s.raise .invalidEncoding
      | some r =>
        if r.body.length > s.cfg.msgCap then s.raise .invalidLength else (s.putFields rd ra r).complete)) := by
  show execRdec rd ra s = _
  rw [execRdec, beq_false_of_ne hne]
  rfl

variable (hh : s.hsel < s.cfg.nhash) (hlen : s.regs.reclen.toNat ≤ s.cfg.recCap)
include hh hlen

theorem exec_rdec_of_rejected (hr : decodeRecord s.cfg.flen s.recordBytes s.dlen s.ctrl.noempty = none) :
    exec (.rdec rd ra) s = .next (s.raise .invalidEncoding) := by
  rw [exec_rdec hne, State.guarded_of_none (firstFault_recChecks_holds hh hlen), hr]

theorem exec_rdec_of_accepted {r : Record}
    (hr : decodeRecord s.cfg.flen s.recordBytes s.dlen s.ctrl.noempty = some r) : exec (.rdec rd ra) s =
      .next (if r.body.length > s.cfg.msgCap then s.raise .invalidLength else (s.putFields rd ra r).complete) := by
  rw [exec_rdec hne, State.guarded_of_none (firstFault_recChecks_holds hh hlen), hr]

end

namespace State

section
variable (s : State) (rd ra : FReg) (r : Record)

@[simp] theorem putFields_cfg : (s.putFields rd ra r).cfg = s.cfg := by simp [putFields]
@[simp] theorem putFields_params : (s.putFields rd ra r).params = s.params := by simp [putFields]
@[simp] theorem putFields_keys : (s.putFields rd ra r).keys = s.keys := by simp [putFields]
@[simp] theorem putFields_consts : (s.putFields rd ra r).consts = s.consts := by simp [putFields]
@[simp] theorem putFields_pt : (s.putFields rd ra r).pt = s.pt := by simp [putFields]
@[simp] theorem putFields_flags : (s.putFields rd ra r).flags = s.flags := by simp [putFields]
@[simp] theorem putFields_status : (s.putFields rd ra r).status = s.status := by simp [putFields]
@[simp] theorem putFields_ctrl : (s.putFields rd ra r).ctrl = s.ctrl := by simp [putFields]
@[simp] theorem putFields_regs : (s.putFields rd ra r).regs =
    { s.regs with msglen := BitVec.ofNat 32 r.body.length } := by simp [putFields]
@[simp] theorem putFields_turns : (s.putFields rd ra r).turns = s.turns := by simp [putFields]
@[simp] theorem putFields_reply : (s.putFields rd ra r).reply = s.reply := by simp [putFields]
@[simp] theorem putFields_freeCtr : (s.putFields rd ra r).freeCtr = s.freeCtr := by simp [putFields]

end

theorem read_putFields {s : State} (hwf : s.mem.wf = true) (rd ra : FReg) (r : Record) (a : Nat) :
    (s.putFields rd ra r).mem.read a =
      if Buffer.msg.base ≤ a ∧ a < Buffer.msg.base + r.body.length then r.body.getD (a - Buffer.msg.base) 0
      else if Buffer.tag.base ≤ a ∧ a < Buffer.tag.base + r.tag.length then r.tag.getD (a - Buffer.tag.base) 0
      else s.mem.read a := by
  rw [putFields, putMessage_mem, writeBuf_mem, setF_mem, setF_mem,
    Memory.read_writeBytes _ _ _ _ (Memory.wf_writeBytes _ _ _ hwf), Memory.read_writeBytes _ _ _ _ hwf]

theorem getF_putFields_rd (s : State) {rd ra : FReg} (hne : rd ≠ ra) (r : Record) :
    (s.putFields rd ra r).getF rd = r.x1 :=
  (getF_setF_other _ ra rd r.y1 hne).trans (getF_setF_same s rd r.x1)

theorem getF_putFields_ra (s : State) (rd ra : FReg) (r : Record) : (s.putFields rd ra r).getF ra = r.y1 :=
  getF_setF_same _ ra r.y1

theorem getF_putFields_other (s : State) {rd ra q : FReg} (hrd : q ≠ rd) (hra : q ≠ ra) (r : Record) :
    (s.putFields rd ra r).getF q = s.getF q :=
  (getF_setF_other _ ra q r.y1 hra).trans (getF_setF_other s rd q r.x1 hrd)

end State

/-- Settles O21: the four checks in their order, and what RDEC's writes leave in each destination. -/
theorem rdecWritesTheDecodedFields : Obligations.RdecWritesTheDecodedFields := by
  intro rd ra s hne
  refine ⟨decode_encode (.rdec rd ra) (by simpa [Instr.wellFormed] using hne), fun hh => ⟨_, exec_rdec hne, ?_⟩,
    fun hh hlen => ⟨_, exec_rdec hne, ?_⟩,
    fun hh hlen hr => ⟨_, exec_rdec_of_rejected hne hh hlen hr, faultsWith_raise _ s⟩,
    fun hh hlen r hr hbody => ⟨_, exec_rdec_of_accepted hne hh hlen hr, ?_⟩,
    fun ⟨hs, hwf, _⟩ hh hlen r hr hbody => ⟨(s.putFields rd ra r).complete, ?_, ?_⟩⟩
  · exact faultsWith_guarded (firstFault_needHash_fails hh _)
  · exact faultsWith_guarded (firstFault_recChecks_fails hh hlen)
  · rw [if_pos hbody]
    exact faultsWith_raise _ s
  · rw [exec_rdec_of_accepted hne hh hlen hr, if_neg hbody.not_gt]
  · obtain ⟨-, -, htag⟩ := decodeRecord_spec hr
    obtain ⟨-, -, -, ⟨-, hcap⟩, -⟩ := hs
    have hends : EndsOk s (s.putFields rd ra r).complete :=
      endsOk_complete (by simp) (by simp) (by simp) (by simp)
    have hsetup : SameSetup s (s.putFields rd ra r).complete := by simp [SameSetup]
    have hmsglen : (s.putFields rd ra r).complete.regs.msglen.toNat = r.body.length := by
      rw [State.complete_regs, State.putFields_regs]
      exact Nat.mod_eq_of_lt (by omega)
    exact ⟨hends, hsetup, s.getF_putFields_rd hne r, s.getF_putFields_ra rd ra r,
      fun q hrd hra => s.getF_putFields_other hrd hra r, hmsglen, by simp, by simp, by simp, by simp, htag,
      s.read_putFields hwf rd ra r⟩

/-! ### CTSIZE and PTSIZE (44_codec.md R207, R215) -/

theorem regsResult_setResult (s : State) (v : Word) :
    RegsResult s (s.setResult v).complete { s.regs with result := (s.setResult v).complete.regs.result } :=
  ⟨endsOk_complete rfl rfl rfl rfl, ⟨rfl, rfl, rfl, rfl⟩, rfl, rfl, rfl, rfl, rfl, fun _ => rfl⟩

theorem exec_ctsize (s : State) : exec .ctsize s = .next (s.guarded [needHash s, needMsgLen s]
    (s.setResult (BitVec.ofNat 32 (wcs s.cfg.flen s.dlen s.regs.msglen.toNat))).complete) := rfl

theorem exec_ptsize (s : State) : exec .ptsize s = .next (s.guarded [needHash s, needRecLen s]
    (match plainLen s.recordBytes s.dlen s.ctrl.noempty with
      | none => s.raise .invalidEncoding
      | some n => (s.setResult (BitVec.ofNat 32 n)).complete)) := rfl

section
variable {s : State} (hh : s.hsel < s.cfg.nhash)
include hh

theorem exec_ctsize_of_checked (hlen : s.regs.msglen.toNat ≤ s.cfg.msgCap) : exec .ctsize s =
    .next (s.setResult (BitVec.ofNat 32 (wcs s.cfg.flen s.dlen s.regs.msglen.toNat))).complete := by
  rw [exec_ctsize, State.guarded_of_none (firstFault_msgChecks_holds hh hlen)]

variable (hlen : s.regs.reclen.toNat ≤ s.cfg.recCap)
include hlen

theorem exec_ptsize_of_rejected (hn : plainLen s.recordBytes s.dlen s.ctrl.noempty = none) :
    exec .ptsize s = .next (s.raise .invalidEncoding) := by
  rw [exec_ptsize, State.guarded_of_none (firstFault_recChecks_holds hh hlen), hn]

theorem exec_ptsize_of_accepted {n : Nat} (hn : plainLen s.recordBytes s.dlen s.ctrl.noempty = some n) :
    exec .ptsize s = .next (s.setResult (BitVec.ofNat 32 n)).complete := by
  rw [exec_ptsize, State.guarded_of_none (firstFault_recChecks_holds hh hlen), hn]

end

theorem State.length_recordBytes (s : State) : s.recordBytes.length = s.regs.reclen.toNat :=
  Memory.length_readBytes _ _ _

/-- R6 bounds REC_CAP by the worst case of the longest tag and message. -/
theorem wcs_le_recCap {c : Config} (h : c.Legal) {D L : Nat} (hD : D ≤ 64) (hL : L ≤ c.msgCap) :
    wcs c.flen D L ≤ c.recCap := by
  obtain ⟨-, -, -, -, hcap, -⟩ := h
  exact (wcs_mono hD hL).trans hcap

/-- Settles O22: the checks of each command in their order, and a RESULT that fits its 32 bits. -/
theorem sizeCommandsWriteOnlyResult : Obligations.SizeCommandsWriteOnlyResult := by
  refine ⟨decode_encode .ctsize rfl, decode_encode .ptsize rfl, fun s => ⟨fun hh => ?_, fun hh hlen => ?_,
    fun hh hlen => ?_, fun hh hlen hn => ?_, fun hs hh hlen => ?_, fun hs hh hlen n hn => ?_⟩⟩
  · have hbad := firstFault_needHash_fails hh
    exact ⟨⟨_, exec_ctsize s, faultsWith_guarded (hbad _)⟩, ⟨_, exec_ptsize s, faultsWith_guarded (hbad _)⟩⟩
  · exact ⟨_, exec_ctsize s, faultsWith_guarded (firstFault_msgChecks_fails hh hlen)⟩
  · exact ⟨_, exec_ptsize s, faultsWith_guarded (firstFault_recChecks_fails hh hlen)⟩
  · exact ⟨_, exec_ptsize_of_rejected hh hlen hn, faultsWith_raise _ s⟩
  · have hle := wcs_le_recCap hs (Config.digestLen_le hs s.hsel) hlen
    obtain ⟨-, -, -, -, -, hcap⟩ := hs
    exact ⟨_, exec_ctsize_of_checked hh hlen, Nat.mod_eq_of_lt (hle.trans_lt (by omega)), regsResult_setResult s _⟩
  · have hle : n ≤ s.recordBytes.length := plainLen_le hn
    rw [s.length_recordBytes] at hle
    exact ⟨_, exec_ptsize_of_accepted hh hlen hn, Nat.mod_eq_of_lt (hle.trans_lt s.regs.reclen.isLt),
      regsResult_setResult s _⟩

end Sys2Proof.Machine

namespace Sys2Proof.Machine

/-! ## The checks of ENCRYPT, and what one scalar gives (45_engine.md R235) -/

section
variable {s : State}

/-- R193's bound is met by every length a register can hold, once a hash is selected. -/
theorem needKdfLen_holds (hD : 1 ≤ s.dlen) {L : Nat} (hL : L < 2 ^ 32) : s.needKdfLen L = (false, .invalidLength) := by
  rw [State.needKdfLen, decide_eq_false (by omega)]

theorem firstFault_encryptChecks_eq_none (hs : s.cfg.Legal) :
    firstFault (encryptChecks s) = none ↔ Spec.EncryptReady s := by
  simp only [encryptChecks, firstFault_needParams, firstFault_needHash, firstFault_needMsgLen, Spec.EncryptReady]
  refine and_congr_right fun _ => and_congr_right fun hh => and_congr_right fun _ => ?_
  rw [needKdfLen_holds (Config.one_le_digestLen hs hh) s.regs.msglen.isLt]
  simp only [firstFault_cons_eq_none, firstFault_nil, and_true, true_and, decide_eq_false_iff_not, not_lt,
    Bool.and_eq_false_imp, beq_eq_false_iff_ne, Bool.not_eq_false']
  rfl

theorem one_le_dlen_of_encryptReady (hs : s.cfg.Legal) (h : Spec.EncryptReady s) : 1 ≤ s.dlen := by
  obtain ⟨-, hh, -⟩ := h
  exact Config.one_le_digestLen hs hh

end

/-- What R235's retry loop hands on for an accepted scalar `k`. -/
def sharedOf (P : Ports) (s : State) (k : Nat) : Shared :=
  ⟨(s.affine (Spec.ephemeral s k)).1, (s.affine (Spec.ephemeral s k)).2, (s.affine (Spec.sharedPoint s k)).1,
    (s.affine (Spec.sharedPoint s k)).2, Spec.streamOf P s k⟩

/-- How the retry loop ends once a valid scalar is tried, `next` being what another draw comes to. -/
def Attempt.resume (next : LoopEnd) (att : Nat) (cur : Cursor) : Attempt → LoopEnd
  | .c1Infinite => ⟨.error .pointAtInfinity, att, cur⟩
  | .redraw => next
  | .found r => ⟨.ok r, att, cur⟩

/-- The state ENCRYPT ends in when its checks pass and its retry loop ends as `e` says. -/
def encryptEnd (P : Ports) (s : State) (e : LoopEnd) : State :=
  match e.result with
  | .error F => encryptFail (s.setCursor e.cur) e.att F
  | .ok r => (((s.setCursor e.cur).putRecord (encryptRecord P s s.plaintext r)).setAtt e.att).complete

theorem encryptEnd_ok (P : Ports) (s : State) (r : Shared) (att : Nat) (cur : Cursor) :
    encryptEnd P s ⟨.ok r, att, cur⟩ =
      (((s.setCursor cur).putRecord (encryptRecord P s s.plaintext r)).setAtt att).complete := rfl

theorem encryptWith_of_fault (P : Ports) {s : State} {F : CmdFault} (h : firstFault (encryptChecks s) = some F) :
    encryptWith P s = encryptFail s 0 F := by
  rw [encryptWith, h]

theorem encryptWith_of_none (P : Ports) {s : State} (h : firstFault (encryptChecks s) = none) :
    encryptWith P s =
      encryptEnd P s (encryptLoop P s s.regs.msglen.toNat s.regs.maxatt.toNat 0 s.cursor) := by
  rw [encryptWith, h]
  rfl

section
variable {P : Ports} {s : State} {k : Nat}

section
variable (hP : P.Lawful) (hD : 1 ≤ s.dlen)
include hP hD

theorem kdf_eq_streamOf : kdf (s.hashWith P) (s.fe (s.affine (Spec.sharedPoint s k)).1 ++
    s.fe (s.affine (Spec.sharedPoint s k)).2) s.regs.msglen.toNat = Spec.streamOf P s k :=
  kdf_eq_keystream (State.length_hashWith hP s) hD _

/-- R235 steps 2 to 5, by the two points and the keystream. -/
theorem attempt_eq : attempt P s s.regs.msglen.toNat k =
    if (Spec.ephemeral s k).z = 0 then .c1Infinite
    else if (Spec.sharedPoint s k).z = 0 then .redraw
    else if allZero (Spec.streamOf P s k) s.regs.msglen.toNat then .redraw
    else .found (sharedOf P s k) := by
  rw [sharedOf, ← kdf_eq_streamOf hP hD]
  rfl

end

/-! ### The retry loop, one draw at a time -/

variable {L fuel att : Nat} {c c' : Cursor}

theorem encryptLoop_refused (hd : s.drawFrom P c = (none, c')) :
    encryptLoop P s L (fuel + 1) att c = ⟨.error .randomnessExhausted, att + 1, c'⟩ := by
  rw [encryptLoop, hd]

theorem encryptLoop_invalid (hd : s.drawFrom P c = (some k, c')) (hv : validScalar s.params.n k = false) :
    encryptLoop P s L (fuel + 1) att c = encryptLoop P s L fuel (att + 1) c' := by
  simp [encryptLoop, hd, hv]

theorem encryptLoop_valid (hd : s.drawFrom P c = (some k, c')) (hv : validScalar s.params.n k = true) :
    encryptLoop P s L (fuel + 1) att c =
      (attempt P s L k).resume (encryptLoop P s L fuel (att + 1) c') (att + 1) c' := by
  simp only [encryptLoop, hd, hv]
  cases attempt P s L k <;> rfl

end

/-! ## Walking the phases (45_engine.md R250, R251, R253) -/

/-- Some number of phase steps from `s` reaches the phase `last`, and completion there gives `t`. -/
def WalksTo (P : Ports) (last : Phase) (s t : State) : Prop :=
  ∃ n, (seqRun P n s).phase = last ∧ seqFinish (seqRun P n s) = t

section
variable {P : Ports} {last ph : Phase} {s t : State} {c : Scratch}

theorem WalksTo.here (hph : s.phase = last) (ht : seqFinish s = t) : WalksTo P last s t := ⟨0, hph, ht⟩

theorem WalksTo.of_run (m : Nat) (h : WalksTo P last (seqRun P m s) t) : WalksTo P last s t := by
  obtain ⟨n, hph, ht⟩ := h
  rw [← seqRun_add] at hph ht
  exact ⟨m + n, hph, ht⟩

theorem WalksTo.edge {u : State} (hedge : seqAdvance P s = u) (h : WalksTo P last u t) : WalksTo P last s t := by
  refine .of_run 1 ?_
  rwa [seqRun, hedge]

theorem seqSeed_of_caller (h : runsKdf (s.toPhaseWith ph c) = false) :
    seqSeed (s.toPhaseWith ph c) = s.fe c.x2 ++ s.fe c.y2 := by
  rw [seqSeed, h]
  rfl

/-- From K_INIT the KDF machine hands the keystream to K_DONE. -/
theorem WalksTo.kdf (hs : UsesKdf (s.toPhaseWith .kInit c)) (hcaller : runsKdf (s.toPhaseWith .kInit c) = false)
    (hP : P.Lawful) (hD : 1 ≤ s.dlen)
    (h : ∀ stage ct st dg, WalksTo P last (kdfDone (s.toPhaseWith stage (c.kdfAt ct (kdf (s.hashWith P)
      (seqSeed (s.toPhaseWith .kInit c)) (seqLen (s.toPhaseWith .kInit c))) st dg)) stage) t) :
    WalksTo P last (s.toPhaseWith .kInit c) t := by
  obtain ⟨n, stage, ct, st, dg, -, hn⟩ := seqRun_kdf (P := P) hs (State.length_hashWith hP s) hD rfl (by simp [hcaller])
  refine .of_run n ?_
  rw [hn]
  exact h stage ct st dg

end

/-! ### ENCRYPT (R250) -/

namespace Scratch

/-- The cursors as the sequencer holds them. -/
def cursor (c : Scratch) : Cursor := ⟨c.rngpos, c.freeCtr⟩

/-- What E_CHECK sets up for the draws. -/
def started (c : Scratch) (s : State) : Scratch :=
  { c with att := 0, rngpos := s.regs.rngpos, freeCtr := s.freeCtr }

/-- The scratch after a draw that left the cursors at `cur`. -/
def drawn (c : Scratch) (cur : Cursor) : Scratch :=
  { c with att := c.att + 1, rngpos := cur.rngpos, freeCtr := cur.freeCtr }

/-- What E_C1 keeps of a finite C1. -/
def withC1 (c : Scratch) (s : State) (T : Triple) : Scratch :=
  { c with c1 := T, x1 := (s.affine T).1, y1 := (s.affine T).2 }

/-- What E_S and D_S keep of a finite S. -/
def withShared (c : Scratch) (s : State) (T : Triple) : Scratch :=
  { c with sh := T, x2 := (s.affine T).1, y2 := (s.affine T).2 }

/-- What K_DONE leaves of the KDF machine's registers. -/
def kdfCleared (c : Scratch) : Scratch := { c with ct := 0, kpos := 0, digest := [] }

/-- What E_XOR keeps. -/
def withBody (c : Scratch) : Scratch := { c with body := xorBytes c.msg c.t }

/-- What E_TAG and D_TAG keep. -/
def withDigest (c : Scratch) (P : Ports) (s : State) : Scratch :=
  { c with u := s.hashWith P (s.fe c.x2 ++ c.msg ++ s.fe c.y2) }

/-- What E_ENC keeps. -/
def withRecord (c : Scratch) (s : State) : Scratch :=
  { c with record := encodeRecord s.cfg.flen c.x1 c.y1 c.u c.body }

/-- What the scratch holds throughout the phases of ENCRYPT, until one of them finds a fault. -/
structure Encrypting (c : Scratch) (s : State) : Prop where
  cmd : decode c.cmd = .ok .encrypt
  msg : c.msg = s.plaintext
  fault : c.fault = none

end Scratch

section
variable {P : Ports} {s : State} {ph : Phase} {c : Scratch}

theorem seqFinish_eWipe_fault (P : Ports) {F : CmdFault} (hF : c.fault = some F) :
    seqFinish (s.toPhaseWith .eWipe c) = encryptEnd P s ⟨.error F, c.att, c.cursor⟩ := by
  simp only [seqFinish, State.toPhaseWith_phase, State.toPhaseWith_scratch, hF]
  rfl

theorem seqFinish_eWipe_record (hF : c.fault = none) : seqFinish (s.toPhaseWith .eWipe c) =
    (((s.setCursor c.cursor).putRecord c.record).setAtt c.att).complete := by
  simp only [seqFinish, State.toPhaseWith_phase, State.toPhaseWith_scratch, hF]
  rfl

/-! The edges of R250's table that depend on what a phase finds. -/

theorem encryptAdvance_eCheck_fault {F : CmdFault} (h : firstFault (encryptChecks s) = some F) :
    encryptAdvance P (s.toPhaseWith .eCheck c) = s.toPhaseWith .eWipe { c.started s with fault := some F } := by
  have h' : firstFault (encryptChecks (s.toPhaseWith .eCheck c)) = some F := h
  simp only [encryptAdvance, State.toPhaseWith_phase, h']
  rfl

theorem encryptAdvance_eCheck_ready (h : firstFault (encryptChecks s) = none) :
    encryptAdvance P (s.toPhaseWith .eCheck c) = s.toPhaseWith .eDraw { c.started s with msg := s.plaintext } := by
  have h' : firstFault (encryptChecks (s.toPhaseWith .eCheck c)) = none := h
  simp only [encryptAdvance, State.toPhaseWith_phase, h']
  rfl

theorem encryptAdvance_eDraw_spent (h : s.regs.maxatt.toNat ≤ c.att) :
    encryptAdvance P (s.toPhaseWith .eDraw c) =
      s.toPhaseWith .eWipe { c with fault := some .randomnessExhausted } := if_pos h

section
variable {cur : Cursor} (h : c.att < s.regs.maxatt.toNat)
include h

theorem encryptAdvance_eDraw_refused (hd : s.drawFrom P c.cursor = (none, cur)) :
    encryptAdvance P (s.toPhaseWith .eDraw c) =
      s.toPhaseWith .eWipe { c.drawn cur with fault := some .randomnessExhausted } := by
  have hd' : (s.toPhaseWith .eDraw c).drawFrom P ⟨c.rngpos, c.freeCtr⟩ = (none, cur) := hd
  simp only [encryptAdvance, State.toPhaseWith_phase, State.toPhaseWith_scratch, State.toPhaseWith_regs,
    if_neg h.not_ge, hd']
  rfl

theorem encryptAdvance_eDraw_delivered {k : Nat} (hd : s.drawFrom P c.cursor = (some k, cur)) :
    encryptAdvance P (s.toPhaseWith .eDraw c) =
      s.toPhaseWith (if validScalar s.params.n k then .eC1 else .eDraw) { c.drawn cur with k := k } := by
  have hd' : (s.toPhaseWith .eDraw c).drawFrom P ⟨c.rngpos, c.freeCtr⟩ = (some k, cur) := hd
  cases hv : validScalar s.params.n k <;>
  · simp only [encryptAdvance, State.toPhaseWith_phase, State.toPhaseWith_scratch, State.toPhaseWith_regs,
      if_neg h.not_ge, hd', State.toPhaseWith_params, hv]
    rfl

end

theorem encryptAdvance_eC1_infinite (h : (Spec.ephemeral s c.k).z = 0) :
    encryptAdvance P (s.toPhaseWith .eC1 c) = s.toPhaseWith .eWipe { c with fault := some .pointAtInfinity } :=
  if_pos h

theorem encryptAdvance_eC1_finite (h : (Spec.ephemeral s c.k).z ≠ 0) :
    encryptAdvance P (s.toPhaseWith .eC1 c) = s.toPhaseWith .eS (c.withC1 s (Spec.ephemeral s c.k)) := if_neg h

theorem encryptAdvance_eS_infinite (h : (Spec.sharedPoint s c.k).z = 0) :
    encryptAdvance P (s.toPhaseWith .eS c) = s.toPhaseWith .eDraw { c with sh := Spec.sharedPoint s c.k } := if_pos h

theorem encryptAdvance_eS_finite (h : (Spec.sharedPoint s c.k).z ≠ 0) :
    encryptAdvance P (s.toPhaseWith .eS c) = s.toPhaseWith .eKdf (c.withShared s (Spec.sharedPoint s c.k)) := if_neg h

section
variable (hw : decode c.cmd = .ok .encrypt)
include hw

theorem decode_fetch_encrypt : decode (s.toPhaseWith ph c).fetch = .ok .encrypt := hw

theorem runsKdf_encrypt : runsKdf (s.toPhaseWith ph c) = false := by
  rw [runsKdf, decode_fetch_encrypt hw]

theorem runsEncrypt_encrypt : runsEncrypt (s.toPhaseWith ph c) = true := by
  rw [runsEncrypt, decode_fetch_encrypt hw]

theorem seqLen_encrypt : seqLen (s.toPhaseWith ph c) = s.regs.msglen.toNat := by
  rw [seqLen, runsKdf_encrypt hw, runsEncrypt_encrypt hw]
  rfl

/-- K_DONE of ENCRYPT: E_DRAW again when the keystream of a non-empty message is all zero, else E_XOR. -/
theorem kdfDone_encrypt (stage : Phase) {t : List Byte} (ht : c.t = t) : kdfDone (s.toPhaseWith ph c) stage =
    s.toPhaseWith (if allZero t s.regs.msglen.toNat then .eDraw else .eXor) c.kdfCleared := by
  rw [kdfDone, runsKdf_encrypt hw, runsEncrypt_encrypt hw, seqLen_encrypt hw, ← ht]
  exact (apply_ite (s.toPhaseWith · c.kdfCleared) _ _ _).symm

theorem seqAdvance_encrypt (hb : s.status.busy = true) :
    seqAdvance P (s.toPhaseWith ph c) = encryptAdvance P (s.toPhaseWith ph c) := by
  have hbusy : (s.toPhaseWith ph c).status.busy = true := hb
  rw [seqAdvance, hbusy, decode_fetch_encrypt hw]
  rfl

end

theorem WalksTo.encrypt_edge {last : Phase} {u t : State} (hedge : encryptAdvance P (s.toPhaseWith ph c) = u)
    (hw : decode c.cmd = .ok .encrypt) (hb : s.status.busy = true) (h : WalksTo P last u t) :
    WalksTo P last (s.toPhaseWith ph c) t :=
  .edge ((seqAdvance_encrypt hw hb).trans hedge) h

section
variable (hb : s.status.busy = true) (hc : c.Encrypting s)
include hb hc

/-- E_XOR, E_TAG and E_ENC make the record of what the scratch holds. -/
theorem walksTo_eXor : WalksTo P .eWipe (s.toPhaseWith .eXor c)
    (encryptEnd P s ⟨.ok ⟨c.x1, c.y1, c.x2, c.y2, c.t⟩, c.att, c.cursor⟩) := by
  have hxor : encryptAdvance P (s.toPhaseWith .eXor c) = s.toPhaseWith .eTag c.withBody := rfl
  have htag : encryptAdvance P (s.toPhaseWith .eTag c.withBody) = s.toPhaseWith .eEnc (c.withBody.withDigest P s) := rfl
  have henc : encryptAdvance P (s.toPhaseWith .eEnc (c.withBody.withDigest P s)) =
      s.toPhaseWith .eWipe ((c.withBody.withDigest P s).withRecord s) := rfl
  refine .encrypt_edge hxor hc.cmd hb (.encrypt_edge htag hc.cmd hb (.encrypt_edge henc hc.cmd hb (.here rfl ?_)))
  have hfault : ((c.withBody.withDigest P s).withRecord s).fault = none := hc.fault
  rw [seqFinish_eWipe_record hfault, encryptEnd_ok, encryptRecord, ← hc.msg]
  rfl

variable (hP : P.Lawful) (hD : 1 ≤ s.dlen)
include hP hD

section
variable {next : LoopEnd} (hnext : ∀ c' : Scratch, c'.Encrypting s → c'.att = c.att → c'.cursor = c.cursor →
  WalksTo P .eWipe (s.toPhaseWith .eDraw c') (encryptEnd P s next))
include hnext

/-- From E_KDF, `next` being what another draw comes to: the keystream `t` decides. -/
theorem walksTo_eKdf {t : List Byte}
    (ht : kdf (s.hashWith P) (s.fe c.x2 ++ s.fe c.y2) s.regs.msglen.toNat = t) :
    WalksTo P .eWipe (s.toPhaseWith .eKdf c) (encryptEnd P s
      (if allZero t s.regs.msglen.toNat then next else ⟨.ok ⟨c.x1, c.y1, c.x2, c.y2, t⟩, c.att, c.cursor⟩)) := by
  have hkdf : encryptAdvance P (s.toPhaseWith .eKdf c) = s.toPhaseWith .kInit c := rfl
  refine .encrypt_edge hkdf hc.cmd hb ?_
  refine .kdf ⟨hb, .inr (.inl hc.cmd)⟩ (runsKdf_encrypt hc.cmd) hP hD fun stage ct st dg => ?_
  have hout : (c.kdfAt ct t st dg).Encrypting s := ⟨hc.cmd, hc.msg, hc.fault⟩
  have hdone : (c.kdfAt ct t st dg).kdfCleared.Encrypting s := ⟨hc.cmd, hc.msg, hc.fault⟩
  rw [seqSeed_of_caller (runsKdf_encrypt hc.cmd), seqLen_encrypt hc.cmd, ht,
    kdfDone_encrypt hout.cmd stage (t := t) rfl]
  cases allZero t s.regs.msglen.toNat with
  | true => exact hnext _ hdone rfl rfl
  | false => exact walksTo_eXor hb hdone

/-- From E_C1, `next` being what another draw comes to: the walk ends as `attempt` says. -/
theorem walksTo_eC1 : WalksTo P .eWipe (s.toPhaseWith .eC1 c)
    (encryptEnd P s ((attempt P s s.regs.msglen.toNat c.k).resume next c.att c.cursor)) := by
  rw [attempt_eq hP hD]
  by_cases hC1 : (Spec.ephemeral s c.k).z = 0
  · rw [if_pos hC1]
    exact .encrypt_edge (encryptAdvance_eC1_infinite hC1) hc.cmd hb (.here rfl (seqFinish_eWipe_fault P rfl))
  rw [if_neg hC1]
  refine .encrypt_edge (encryptAdvance_eC1_finite hC1) hc.cmd hb ?_
  by_cases hS : (Spec.sharedPoint s c.k).z = 0
  · rw [if_pos hS]
    exact .encrypt_edge (encryptAdvance_eS_infinite hS) hc.cmd hb (hnext _ ⟨hc.cmd, hc.msg, hc.fault⟩ rfl rfl)
  rw [if_neg hS, apply_ite (Attempt.resume next c.att c.cursor)]
  have hfinite : ((c.withC1 s (Spec.ephemeral s c.k)).withShared s (Spec.sharedPoint s c.k)).Encrypting s :=
    ⟨hc.cmd, hc.msg, hc.fault⟩
  exact .encrypt_edge (encryptAdvance_eS_finite hS) hc.cmd hb
    (walksTo_eKdf hb hfinite hP hD hnext (kdf_eq_streamOf hP hD))

end

/-- The walk of E_DRAW to E_KDF is R235's retry loop, with `fuel` draws left. -/
theorem walksTo_encryptLoop (fuel : Nat) (hfuel : c.att + fuel = s.regs.maxatt.toNat) :
    WalksTo P .eWipe (s.toPhaseWith .eDraw c)
      (encryptEnd P s (encryptLoop P s s.regs.msglen.toNat fuel c.att c.cursor)) := by
  induction fuel generalizing c with
  | zero =>
    exact .encrypt_edge (encryptAdvance_eDraw_spent (by omega)) hc.cmd hb (.here rfl (seqFinish_eWipe_fault P rfl))
  | succ fuel ih =>
    have hatt : c.att < s.regs.maxatt.toNat := by omega
    rcases hd : s.drawFrom P c.cursor with ⟨_ | k, cur⟩
    · rw [encryptLoop_refused hd]
      exact .encrypt_edge (encryptAdvance_eDraw_refused hatt hd) hc.cmd hb (.here rfl (seqFinish_eWipe_fault P rfl))
    · refine .encrypt_edge (encryptAdvance_eDraw_delivered hatt hd) hc.cmd hb ?_
      have hc' : ({ c.drawn cur with k := k } : Scratch).Encrypting s := ⟨hc.cmd, hc.msg, hc.fault⟩
      have hagain : ∀ c' : Scratch, c'.Encrypting s → c'.att = c.att + 1 → c'.cursor = cur →
          WalksTo P .eWipe (s.toPhaseWith .eDraw c')
            (encryptEnd P s (encryptLoop P s s.regs.msglen.toNat fuel (c.att + 1) cur)) := by
        intro c' hc' hatt' hcur
        rw [← hatt', ← hcur]
        exact ih hc' (by omega)
      cases hv : validScalar s.params.n k with
      | false =>
        rw [encryptLoop_invalid hd hv]
        exact hagain _ hc' rfl rfl
      | true =>
        rw [encryptLoop_valid hd hv]
        exact walksTo_eC1 hb hc' hP hD hagain

end

/-- The walk of ENCRYPT from a scratch that holds its word and no fault. -/
theorem walksTo_eCheck (hP : P.Lawful) (hs : s.cfg.Legal) (hb : s.status.busy = true)
    (hw : decode c.cmd = .ok .encrypt) (hnone : c.fault = none) :
    WalksTo P .eWipe (s.toPhaseWith .eCheck c) (encryptWith P s) := by
  cases hfault : firstFault (encryptChecks s) with
  | some F =>
    rw [encryptWith_of_fault P hfault]
    exact .encrypt_edge (encryptAdvance_eCheck_fault hfault) hw hb (.here rfl (seqFinish_eWipe_fault P rfl))
  | none =>
    have hD := one_le_dlen_of_encryptReady hs ((firstFault_encryptChecks_eq_none hs).mp hfault)
    have hc : ({ c.started s with msg := s.plaintext } : Scratch).Encrypting s := ⟨hw, rfl, hnone⟩
    rw [encryptWith_of_none P hfault]
    exact .encrypt_edge (encryptAdvance_eCheck_ready hfault) hw hb
      (walksTo_encryptLoop hb hc hP hD _ (Nat.zero_add _))

end

/-- Settles O47: a failing check goes to E_WIPE at once; otherwise the walk repeats R235's loop draw by draw. -/
theorem encryptPhasesReachItsMeaning : Obligations.EncryptPhasesReachItsMeaning := by
  intro P s w hP hs hw
  have hstart : s.acceptWord w = (s.acceptWord w).toPhaseWith .eCheck { Scratch.zero with cmd := w } := by
    rw [State.acceptWord, firstPhase, hw]
    rfl
  have hwalk := walksTo_eCheck (s := s.acceptWord w) (c := { Scratch.zero with cmd := w }) hP hs rfl hw rfl
  rwa [← hstart] at hwalk

end Sys2Proof.Machine

namespace Sys2Proof.Machine

/-! ## What a decoded record gives (45_engine.md R245) -/

/-- The keystream's length is the body's: DecodeRecord and PlainLen read the same framing. -/
theorem plainLen_of_decodeRecord {F D : Nat} {buf : List Byte} {ne : Bool} {r : Record}
    (h : decodeRecord F buf D ne = some r) : plainLen buf D ne = some r.body.length := by
  obtain ⟨X, Y, hparse, hfits, -, -⟩ := decodeRecord_eq_some_iff.mp h
  exact plainLen_eq_some_iff.mpr ⟨_, hparse, hfits, rfl⟩

/-- S = [d]C1 (R245 step 3). -/
def receivedPoint (s : State) (r : Record) : Triple := s.scalarMul s.keys.d ⟨r.x1, r.y1, 1⟩

/-- M', the body with the keystream taken off (R245 steps 4 and 5). -/
def candidate (P : Ports) (s : State) (r : Record) : List Byte :=
  xorBytes r.body (Spec.keystream (Spec.hashOf P s) (s.cfg.digestLen s.hsel)
    (Spec.xBytes s (receivedPoint s r) ++ Spec.yBytes s (receivedPoint s r)) r.body.length)

/-- The digest of M' (R245 step 6). -/
def recomputedTag (P : Ports) (s : State) (r : Record) : List Byte :=
  Spec.hashOf P s (Spec.xBytes s (receivedPoint s r) ++ candidate P s r ++ Spec.yBytes s (receivedPoint s r))

/-- None of R246's three causes. -/
def Authentic (P : Ports) (s : State) (r : Record) : Prop :=
  s.isOnCurve r.x1 r.y1 = true ∧ (receivedPoint s r).z ≠ 0 ∧ recomputedTag P s r = r.tag

section
variable {P : Ports} {s : State} {r : Record}

@[simp] theorem length_candidate : (candidate P s r).length = r.body.length := by
  simp [candidate]

section
variable (hP : P.Lawful) (hD : 1 ≤ s.dlen)
include hP hD

theorem kdf_eq_keystream_received : kdf (s.hashWith P) (s.fe (s.affine (receivedPoint s r)).1 ++
    s.fe (s.affine (receivedPoint s r)).2) r.body.length = Spec.keystream (Spec.hashOf P s)
      (s.cfg.digestLen s.hsel) (Spec.xBytes s (receivedPoint s r) ++ Spec.yBytes s (receivedPoint s r)) r.body.length :=
  kdf_eq_keystream (State.length_hashWith hP s) hD _

theorem decryptBody_eq : decryptBody P s r.body.length r =
    if !s.isOnCurve r.x1 r.y1 then .error .authenticationFailed
    else if (receivedPoint s r).z = 0 then .error .authenticationFailed
    else if recomputedTag P s r ≠ r.tag then .error .authenticationFailed
    else .ok (candidate P s r) := by
  rw [recomputedTag, candidate, ← kdf_eq_keystream_received hP hD]
  rfl

theorem decryptBody_of_authentic (h : Authentic P s r) :
    decryptBody P s r.body.length r = .ok (candidate P s r) := by
  obtain ⟨hcurve, hfinite, htag⟩ := h
  simp [decryptBody_eq hP hD, hcurve, hfinite, htag]

/-- R246: the three causes share one fault. -/
theorem decryptBody_of_not_authentic (h : ¬ Authentic P s r) :
    decryptBody P s r.body.length r = .error .authenticationFailed := by
  rw [decryptBody_eq hP hD]
  split_ifs with hcurve hfinite htag
  · rfl
  · rfl
  · rfl
  · exact absurd ⟨by simpa using hcurve, hfinite, not_not.mp htag⟩ h

end

/-! ### The outcome of DECRYPT, by what its stages find -/

theorem decryptResult_of_check_error {F : CmdFault} (h : decryptCheck s = .error F) : decryptResult P s = .error F := by
  rw [decryptResult, h]

section
variable {L : Nat} (hL : decryptCheck s = .ok L)
include hL

theorem decryptResult_of_not_decoded
    (hr : decodeRecord s.cfg.flen s.recordBytes s.dlen s.ctrl.noempty = none) :
    decryptResult P s = .error .invalidEncoding := by
  rw [decryptResult, hL, hr]

theorem decryptResult_of_decoded (hr : decodeRecord s.cfg.flen s.recordBytes s.dlen s.ctrl.noempty = some r) :
    decryptResult P s = decryptBody P s r.body.length r := by
  obtain ⟨-, hplain, -⟩ := decryptCheck_eq_ok hL
  rw [plainLen_of_decodeRecord hr] at hplain
  rw [decryptResult, hL, hr, Option.some.inj hplain]

theorem one_le_dlen_of_decryptCheck (hs : s.cfg.Legal) : 1 ≤ s.dlen := by
  obtain ⟨hchecks, -⟩ := decryptCheck_eq_ok hL
  rw [decryptChecks, firstFault_needParams, firstFault_needHash] at hchecks
  obtain ⟨-, hh, -⟩ := hchecks
  exact Config.one_le_digestLen hs hh

end

theorem decryptWith_of_error {F : CmdFault} (h : decryptResult P s = .error F) : decryptWith P s = decryptFail s F := by
  rw [decryptWith, h]

theorem decryptWith_of_ok {m : List Byte} (h : decryptResult P s = .ok m) :
    decryptWith P s = (s.putMessage m).complete := by
  rw [decryptWith, h]

end

/-! ### The phases of DECRYPT (45_engine.md R251) -/

namespace Scratch

/-- What D_DEC keeps of the decoded record. -/
def withDecoded (c : Scratch) (r : Record) : Scratch := { c with x1 := r.x1, y1 := r.y1, tag := r.tag, body := r.body }

/-- What D_XOR keeps. -/
def withCandidate (c : Scratch) : Scratch := { c with msg := xorBytes c.body c.t }

end Scratch

section
variable {P : Ports} {s : State} {ph : Phase} {c c' : Scratch} {r : Record}

theorem seqFinish_dWipe_fault {F : CmdFault} (hF : c.fault = some F) :
    seqFinish (s.toPhaseWith .dWipe c) = decryptFail s F := by
  simp only [seqFinish, State.toPhaseWith_phase, State.toPhaseWith_scratch, hF]
  rfl

theorem seqFinish_dWipe_message (hF : c.fault = none) :
    seqFinish (s.toPhaseWith .dWipe c) = (s.putMessage c.msg).complete := by
  simp only [seqFinish, State.toPhaseWith_phase, State.toPhaseWith_scratch, hF]
  rfl

/-! The edges of R251's table that depend on what a phase finds. -/

theorem decryptAdvance_dCheck_fault {F : CmdFault} (h : decryptCheck s = .error F) :
    decryptAdvance P (s.toPhaseWith .dCheck c) = s.toPhaseWith .dWipe { c with fault := some F } := by
  have h' : decryptCheck (s.toPhaseWith .dCheck c) = .error F := h
  simp only [decryptAdvance, State.toPhaseWith_phase, h']
  rfl

theorem decryptAdvance_dCheck_passed {L : Nat} (h : decryptCheck s = .ok L) :
    decryptAdvance P (s.toPhaseWith .dCheck c) = s.toPhaseWith .dDec c := by
  have h' : decryptCheck (s.toPhaseWith .dCheck c) = .ok L := h
  simp only [decryptAdvance, State.toPhaseWith_phase, h']
  rfl

theorem decryptAdvance_dDec_rejected (h : decodeRecord s.cfg.flen s.recordBytes s.dlen s.ctrl.noempty = none) :
    decryptAdvance P (s.toPhaseWith .dDec c) = s.toPhaseWith .dWipe { c with fault := some .invalidEncoding } := by
  have h' : decodeRecord (s.toPhaseWith .dDec c).cfg.flen (s.toPhaseWith .dDec c).recordBytes
    (s.toPhaseWith .dDec c).dlen (s.toPhaseWith .dDec c).ctrl.noempty = none := h
  simp only [decryptAdvance, State.toPhaseWith_phase, h']
  rfl

theorem decryptAdvance_dDec_decoded (h : decodeRecord s.cfg.flen s.recordBytes s.dlen s.ctrl.noempty = some r) :
    decryptAdvance P (s.toPhaseWith .dDec c) = s.toPhaseWith .dOnc (c.withDecoded r) := by
  have h' : decodeRecord (s.toPhaseWith .dDec c).cfg.flen (s.toPhaseWith .dDec c).recordBytes
    (s.toPhaseWith .dDec c).dlen (s.toPhaseWith .dDec c).ctrl.noempty = some r := h
  simp only [decryptAdvance, State.toPhaseWith_phase, h']
  rfl

theorem decryptAdvance_dOnc_off (h : s.isOnCurve r.x1 r.y1 = false) :
    decryptAdvance P (s.toPhaseWith .dOnc (c.withDecoded r)) =
      s.toPhaseWith .dWipe { c.withDecoded r with fault := some .authenticationFailed } :=
  if_pos (congrArg not h)

theorem decryptAdvance_dOnc_on (h : s.isOnCurve r.x1 r.y1 = true) :
    decryptAdvance P (s.toPhaseWith .dOnc (c.withDecoded r)) = s.toPhaseWith .dS (c.withDecoded r) :=
  if_neg (Bool.eq_false_iff.mp (congrArg not h))

theorem decryptAdvance_dS_infinite (h : (receivedPoint s r).z = 0) :
    decryptAdvance P (s.toPhaseWith .dS (c.withDecoded r)) =
      s.toPhaseWith .dWipe { c.withDecoded r with fault := some .authenticationFailed } := if_pos h

theorem decryptAdvance_dS_finite (h : (receivedPoint s r).z ≠ 0) :
    decryptAdvance P (s.toPhaseWith .dS (c.withDecoded r)) =
      s.toPhaseWith .dKdf ((c.withDecoded r).withShared s (receivedPoint s r)) := if_neg h

theorem decryptAdvance_dCmp_differs (h : c.u ≠ c.tag) : decryptAdvance P (s.toPhaseWith .dCmp c) =
    s.toPhaseWith .dWipe { c with fault := some .authenticationFailed } := if_pos h

theorem decryptAdvance_dCmp_equal (h : c.u = c.tag) :
    decryptAdvance P (s.toPhaseWith .dCmp c) = s.toPhaseWith .dWipe c := if_neg (not_not.mpr h)

section
variable (hw : decode c.cmd = .ok .decrypt)
include hw

theorem decode_fetch_decrypt : decode (s.toPhaseWith ph c).fetch = .ok .decrypt := hw

theorem runsKdf_decrypt : runsKdf (s.toPhaseWith ph c) = false := by
  rw [runsKdf, decode_fetch_decrypt hw]

theorem runsEncrypt_decrypt : runsEncrypt (s.toPhaseWith ph c) = false := by
  rw [runsEncrypt, decode_fetch_decrypt hw]

theorem seqLen_decrypt : seqLen (s.toPhaseWith ph c) = c.body.length := by
  rw [seqLen, runsKdf_decrypt hw, runsEncrypt_decrypt hw]
  rfl

theorem kdfDone_decrypt (stage : Phase) :
    kdfDone (s.toPhaseWith ph c) stage = s.toPhaseWith .dXor c.kdfCleared := by
  rw [kdfDone, runsKdf_decrypt hw, runsEncrypt_decrypt hw]
  rfl

theorem seqAdvance_decrypt (hb : s.status.busy = true) :
    seqAdvance P (s.toPhaseWith ph c) = decryptAdvance P (s.toPhaseWith ph c) := by
  have hbusy : (s.toPhaseWith ph c).status.busy = true := hb
  rw [seqAdvance, hbusy, decode_fetch_decrypt hw]
  rfl

end

theorem WalksTo.decrypt_edge {last : Phase} {u t : State} (hedge : decryptAdvance P (s.toPhaseWith ph c) = u)
    (hw : decode c.cmd = .ok .decrypt) (hb : s.status.busy = true) (h : WalksTo P last u t) :
    WalksTo P last (s.toPhaseWith ph c) t :=
  .edge ((seqAdvance_decrypt hw hb).trans hedge) h

section
variable (hw : decode c.cmd = .ok .decrypt) (hb : s.status.busy = true) (hnone : c.fault = none)
include hw hb hnone

/-- D_XOR, D_TAG and D_CMP: the candidate message, and its digest against the tag. -/
theorem walksTo_dXor {m u tag : List Byte} (hm : xorBytes c.body c.t = m)
    (hu : s.hashWith P (s.fe c.x2 ++ m ++ s.fe c.y2) = u) (htag : c.tag = tag) :
    WalksTo P .dWipe (s.toPhaseWith .dXor c)
      (if u ≠ tag then decryptFail s .authenticationFailed else (s.putMessage m).complete) := by
  subst hm hu htag
  have hxor : decryptAdvance P (s.toPhaseWith .dXor c) = s.toPhaseWith .dTag c.withCandidate := rfl
  have hdigest : decryptAdvance P (s.toPhaseWith .dTag c.withCandidate) =
      s.toPhaseWith .dCmp (c.withCandidate.withDigest P s) := rfl
  refine .decrypt_edge hxor hw hb (.decrypt_edge hdigest hw hb ?_)
  split
  · next h => exact .decrypt_edge (decryptAdvance_dCmp_differs h) hw hb (.here rfl (seqFinish_dWipe_fault rfl))
  · next h =>
    exact .decrypt_edge (decryptAdvance_dCmp_equal (not_not.mp h)) hw hb (.here rfl (seqFinish_dWipe_message hnone))

/-- From D_KDF with S in the scratch: the candidate message is stored if its digest is the tag. -/
theorem walksTo_dKdf (hP : P.Lawful) (hD : 1 ≤ s.dlen)
    (hc : (c.withDecoded r).withShared s (receivedPoint s r) = c') :
    WalksTo P .dWipe (s.toPhaseWith .dKdf c')
      (if recomputedTag P s r ≠ r.tag then decryptFail s .authenticationFailed
        else (s.putMessage (candidate P s r)).complete) := by
  subst hc
  set c' := (c.withDecoded r).withShared s (receivedPoint s r)
  have hw' : decode c'.cmd = .ok .decrypt := hw
  have hkdf : decryptAdvance P (s.toPhaseWith .dKdf c') = s.toPhaseWith .kInit c' := rfl
  refine .decrypt_edge hkdf hw' hb (.kdf ⟨hb, .inr (.inr hw')⟩ (runsKdf_decrypt hw') hP hD fun stage ct st dg => ?_)
  set t := kdf (s.hashWith P) (seqSeed (s.toPhaseWith .kInit c')) (seqLen (s.toPhaseWith .kInit c')) with ht
  rw [seqSeed_of_caller (runsKdf_decrypt hw'), seqLen_decrypt hw'] at ht
  have hm : xorBytes r.body t = candidate P s r := by
    rw [ht]
    exact congrArg (xorBytes r.body) (kdf_eq_keystream_received hP hD)
  rw [kdfDone_decrypt (by exact hw)]
  exact walksTo_dXor (c := (c'.kdfAt ct t st dg).kdfCleared) hw hb hnone hm rfl rfl

/-- From D_ONC the walk ends as steps 2 to 7 of R245 do. -/
theorem walksTo_dOnc (hP : P.Lawful) (hD : 1 ≤ s.dlen)
    (hr : decryptResult P s = decryptBody P s r.body.length r) :
    WalksTo P .dWipe (s.toPhaseWith .dOnc (c.withDecoded r)) (decryptWith P s) := by
  rw [decryptBody_eq hP hD] at hr
  cases hcurve : s.isOnCurve r.x1 r.y1 with
  | false =>
    rw [decryptWith_of_error (hr.trans (if_pos (congrArg not hcurve)))]
    exact .decrypt_edge (decryptAdvance_dOnc_off hcurve) hw hb (.here rfl (seqFinish_dWipe_fault rfl))
  | true =>
  refine .decrypt_edge (decryptAdvance_dOnc_on hcurve) hw hb ?_
  rw [hcurve, if_neg (by decide)] at hr
  by_cases hS : (receivedPoint s r).z = 0
  · rw [decryptWith_of_error (hr.trans (if_pos hS))]
    exact .decrypt_edge (decryptAdvance_dS_infinite hS) hw hb (.here rfl (seqFinish_dWipe_fault rfl))
  rw [if_neg hS] at hr
  have hwalk := walksTo_dKdf (r := r) hw hb hnone hP hD rfl
  have hend : decryptWith P s = if recomputedTag P s r ≠ r.tag then decryptFail s .authenticationFailed
      else (s.putMessage (candidate P s r)).complete := by
    split_ifs at hr ⊢
    · exact decryptWith_of_error hr
    · exact decryptWith_of_ok hr
  rw [hend]
  exact .decrypt_edge (decryptAdvance_dS_finite hS) hw hb hwalk

end

/-- The walk of DECRYPT from a scratch that holds its word and no fault. -/
theorem walksTo_dCheck (hP : P.Lawful) (hs : s.cfg.Legal) (hb : s.status.busy = true)
    (hw : decode c.cmd = .ok .decrypt) (hnone : c.fault = none) :
    WalksTo P .dWipe (s.toPhaseWith .dCheck c) (decryptWith P s) := by
  cases hcheck : decryptCheck s with
  | error F =>
    rw [decryptWith_of_error (decryptResult_of_check_error hcheck)]
    exact .decrypt_edge (decryptAdvance_dCheck_fault hcheck) hw hb (.here rfl (seqFinish_dWipe_fault rfl))
  | ok L =>
  refine .decrypt_edge (decryptAdvance_dCheck_passed hcheck) hw hb ?_
  cases hr : decodeRecord s.cfg.flen s.recordBytes s.dlen s.ctrl.noempty with
  | none =>
    rw [decryptWith_of_error (decryptResult_of_not_decoded hcheck hr)]
    exact .decrypt_edge (decryptAdvance_dDec_rejected hr) hw hb (.here rfl (seqFinish_dWipe_fault rfl))
  | some r =>
    exact .decrypt_edge (decryptAdvance_dDec_decoded hr) hw hb (walksTo_dOnc hw hb hnone hP
      (one_le_dlen_of_decryptCheck hcheck hs) (decryptResult_of_decoded hcheck hr))

end

/-- Settles O48: each phase makes the next of R245's tests on the same values, and a failing one goes to D_WIPE. -/
theorem decryptPhasesReachItsMeaning : Obligations.DecryptPhasesReachItsMeaning := by
  intro P s w hP hs hw
  have hstart : s.acceptWord w = (s.acceptWord w).toPhaseWith .dCheck { Scratch.zero with cmd := w } := by
    rw [State.acceptWord, firstPhase, hw]
    rfl
  have hwalk := walksTo_dCheck (s := s.acceptWord w) (c := { Scratch.zero with cmd := w }) hP hs rfl hw rfl
  rwa [← hstart] at hwalk

end Sys2Proof.Machine

namespace Sys2Proof.Machine

/-! ## The checks of DECRYPT, and how it ends once a record is decoded (45_engine.md R245) -/

section
variable {s : State}

theorem firstFault_decryptChecks_eq_none : firstFault (decryptChecks s) = none ↔ s.status.pvalid = true ∧
    s.hsel < s.cfg.nhash ∧ (1 ≤ s.keys.d ∧ s.keys.d < s.params.n) ∧ s.regs.reclen.toNat ≤ s.cfg.recCap := by
  simp [decryptChecks, needRecLen, validScalar]

theorem firstFault_decryptLenChecks_eq_none (hs : s.cfg.Legal) (hh : s.hsel < s.cfg.nhash) {L : Nat} :
    firstFault (decryptLenChecks s L) = none ↔ L ≤ s.regs.outcap.toNat ∧ L ≤ s.cfg.msgCap := by
  have hD : 1 ≤ s.dlen := Config.one_le_digestLen hs hh
  obtain ⟨-, -, -, ⟨-, hcap⟩, -⟩ := hs
  have hbound : L ≤ s.cfg.msgCap → ¬ 2 ^ 32 * s.dlen < L := by omega
  simpa [decryptLenChecks, State.needKdfLen] using fun _ => hbound

/-! The outcomes of R245's checks, in their order. -/

theorem decryptCheck_faulted {F : CmdFault} (h : firstFault (decryptChecks s) = some F) :
    decryptCheck s = .error F := by
  simp only [decryptCheck, h]

section
variable (h : firstFault (decryptChecks s) = none)
include h

theorem decryptCheck_badFraming (hplain : plainLen s.recordBytes s.dlen s.ctrl.noempty = none) :
    decryptCheck s = .error .invalidEncoding := by
  simp only [decryptCheck, h, hplain]

variable {L : Nat} (hplain : plainLen s.recordBytes s.dlen s.ctrl.noempty = some L)
include hplain

theorem decryptCheck_badLength {F : CmdFault} (hlen : firstFault (decryptLenChecks s L) = some F) :
    decryptCheck s = .error F := by
  simp only [decryptCheck, h, hplain, hlen]

theorem decryptCheck_passed (hlen : firstFault (decryptLenChecks s L) = none) : decryptCheck s = .ok L := by
  simp only [decryptCheck, h, hplain, hlen]

end

/-- The record in REC is decoded as `r`, and every check made before it is used passes. -/
structure Accepts (s : State) (r : Record) : Prop where
  legal : s.cfg.Legal
  checks : firstFault (decryptChecks s) = none
  decoded : decodeRecord s.cfg.flen s.recordBytes s.dlen s.ctrl.noempty = some r
  outcap : r.body.length ≤ s.regs.outcap.toNat
  msgCap : r.body.length ≤ s.cfg.msgCap

namespace Accepts

variable {P : Ports} {r : Record} (h : Accepts s r)
include h

theorem hash : s.hsel < s.cfg.nhash := by
  obtain ⟨-, hh, -⟩ := firstFault_decryptChecks_eq_none.mp h.checks
  exact hh

theorem one_le_dlen : 1 ≤ s.dlen := Config.one_le_digestLen h.legal h.hash

theorem decryptCheck_eq : decryptCheck s = .ok r.body.length :=
  decryptCheck_passed h.checks (plainLen_of_decodeRecord h.decoded)
    ((firstFault_decryptLenChecks_eq_none h.legal h.hash).mpr ⟨h.outcap, h.msgCap⟩)

theorem decryptWith_of_authentic (hP : P.Lawful) (ha : Authentic P s r) :
    decryptWith P s = (s.putMessage (candidate P s r)).complete :=
  decryptWith_of_ok ((decryptResult_of_decoded h.decryptCheck_eq h.decoded).trans
    (decryptBody_of_authentic hP h.one_le_dlen ha))

theorem decryptWith_of_not_authentic (hP : P.Lawful) (ha : ¬ Authentic P s r) :
    decryptWith P s = decryptFail s .authenticationFailed :=
  decryptWith_of_error ((decryptResult_of_decoded h.decryptCheck_eq h.decoded).trans
    (decryptBody_of_not_authentic hP h.one_le_dlen ha))

end Accepts
end

/-! ## What ENCRYPT has done when it completes (45_engine.md R235, R236) -/

section
variable {P : Ports} {s : State}

/-- The scalar that ended the retry loop. -/
theorem encryptLoop_ok {L fuel att : Nat} {c : Cursor} {r : Shared}
    (h : (encryptLoop P s L fuel att c).result = .ok r) :
    ∃ k, validScalar s.params.n k = true ∧ attempt P s L k = .found r := by
  induction fuel generalizing att c with
  | zero => cases h
  | succ fuel ih =>
    simp only [encryptLoop] at h
    split at h
    · cases h
    · next k _ _ =>
      split at h
      · exact ih h
      · next hv =>
        split at h
        · cases h
        · exact ih h
        · next r' hr =>
          obtain rfl := Except.ok.inj h
          exact ⟨k, by simpa using hv, hr⟩

theorem attempt_eq_found {k : Nat} {r : Shared} (hP : P.Lawful) (hD : 1 ≤ s.dlen)
    (h : attempt P s s.regs.msglen.toNat k = .found r) :
    (Spec.ephemeral s k).z ≠ 0 ∧ (Spec.sharedPoint s k).z ≠ 0 ∧ r = sharedOf P s k := by
  rw [attempt_eq hP hD] at h
  split_ifs at h with hC1 hS hz
  exact ⟨hC1, hS, (Attempt.found.inj h).symm⟩

/-- The record that the scalar `k` gives. -/
def recordOf (P : Ports) (s : State) (k : Nat) : List Byte := encryptRecord P s s.plaintext (sharedOf P s k)

/-- ENCRYPT without fault: its checks passed, and a usable scalar made the record. -/
theorem encryptWith_completed (hP : P.Lawful) (hs : s.cfg.Legal) (h : (encryptWith P s).status.err = false) :
    Spec.EncryptReady s ∧ ∃ k att cur, 1 ≤ k ∧ k < s.params.n ∧ (Spec.ephemeral s k).z ≠ 0 ∧
      (Spec.sharedPoint s k).z ≠ 0 ∧
      encryptWith P s = (((s.setCursor cur).putRecord (recordOf P s k)).setAtt att).complete := by
  cases hfault : firstFault (encryptChecks s) with
  | some F =>
    rw [encryptWith_of_fault P hfault] at h
    cases h
  | none =>
    have hready := (firstFault_encryptChecks_eq_none hs).mp hfault
    refine ⟨hready, ?_⟩
    rw [encryptWith_of_none P hfault] at h ⊢
    rcases hend : encryptLoop P s s.regs.msglen.toNat s.regs.maxatt.toNat 0 s.cursor with ⟨F | r, att, cur⟩
    · rw [hend] at h
      cases h
    · obtain ⟨k, hv, hr⟩ := encryptLoop_ok (congrArg LoopEnd.result hend)
      obtain ⟨hC1, hS, rfl⟩ := attempt_eq_found hP (one_le_dlen_of_encryptReady hs hready) hr
      obtain ⟨hk, hkn⟩ : 1 ≤ k ∧ k < s.params.n := by simpa [validScalar] using hv
      exact ⟨k, att, cur, hk, hkn, hC1, hS, encryptEnd_ok P s _ att cur⟩

@[simp] theorem State.length_plaintext (s : State) : s.plaintext.length = s.regs.msglen.toNat :=
  Memory.length_readBytes _ _ _

@[simp] theorem length_streamOf (P : Ports) (s : State) (k : Nat) :
    (Spec.streamOf P s k).length = s.regs.msglen.toNat := length_keystream _

theorem length_recordOf_le (hP : P.Lawful) (hs : s.cfg.Legal) (hlen : s.regs.msglen.toNat ≤ s.cfg.msgCap) (k : Nat) :
    (recordOf P s k).length ≤ s.cfg.recCap := length_encryptRecord_le hP hs hlen _

/-- RECLEN holds the record's length. -/
theorem toNat_length_recordOf (hP : P.Lawful) (hs : s.cfg.Legal) (hlen : s.regs.msglen.toNat ≤ s.cfg.msgCap) (k : Nat) :
    (BitVec.ofNat 32 (recordOf P s k).length).toNat = (recordOf P s k).length := by
  have hle := length_recordOf_le hP hs hlen k
  obtain ⟨-, -, -, -, -, hcap⟩ := hs
  exact Nat.mod_eq_of_lt (by omega)

end

/-! ## DECRYPT after ENCRYPT (45_engine.md R254) -/

theorem Memory.readBytes_congr {m m' : Memory} {a n : Nat} (h : ∀ i, i < n → m.read (a + i) = m'.read (a + i)) :
    m.readBytes a n = m'.readBytes a n :=
  List.map_congr_left fun i hi => h i (List.mem_range.mp hi)

theorem Memory.getD_readBytes (m : Memory) (a : Nat) {n i : Nat} (hi : i < n) :
    (m.readBytes a n).getD i 0 = m.read (a + i) := by
  simp [Memory.readBytes, hi]

theorem Memory.readBytes_writeBytes {m : Memory} (hwf : m.wf = true) (a : Nat) (bs : List Byte) :
    (m.writeBytes a bs).readBytes a bs.length = bs := by
  refine List.ext_getElem (by simp) fun i hi _ => ?_
  have hi' : i < bs.length := by simpa using hi
  simp [Memory.readBytes, Memory.read_writeBytes m a bs _ hwf, hi']

theorem toAffine_lt {p : Nat} (hp : 0 < p) (W : Nat) (T : Triple) : (toAffine W p T).1 < p ∧ (toAffine W p T).2 < p :=
  ⟨mulP_lt hp _ _, mulP_lt hp _ _⟩

/-- R213's first law, with NOEMPTY. -/
theorem decodeRecord_encodeRecord {F x1 y1 D : Nat} {tag body : List Byte} {ne : Bool} (hF : 1 ≤ F) (hF64 : F ≤ 64)
    (hx : x1 < 256 ^ F) (hy : y1 < 256 ^ F) (htag : tag.length = D) (hD : D ≤ 64) (hbody : body.length < 2 ^ 24)
    (hne : ne = true → body ≠ []) :
    decodeRecord F (encodeRecord F x1 y1 tag body) D ne = some ⟨x1, y1, tag, body⟩ := by
  subst htag
  obtain ⟨-, hdecoded, -⟩ := encodedRecordHasItsLayoutAndDecodes F x1 y1 tag body hF hF64 hx hy hD hbody
  obtain ⟨X, Y, hparse, -, hX, hY⟩ := decodeRecord_eq_some_iff.mp hdecoded
  exact decodeRecord_eq_some_iff.mpr ⟨X, Y, hparse, recordFits_iff.mpr ⟨rfl, hne⟩, hX, hY⟩

/-- What ENCRYPT's record decodes to. -/
def decodedOf (P : Ports) (s : State) (k : Nat) : Record :=
  ⟨(s.affine (Spec.ephemeral s k)).1, (s.affine (Spec.ephemeral s k)).2,
    Spec.hashOf P s (Spec.xBytes s (Spec.sharedPoint s k) ++ s.plaintext ++ Spec.yBytes s (Spec.sharedPoint s k)),
    xorBytes s.plaintext (Spec.streamOf P s k)⟩

section
variable {P : Ports} {s : State} {k : Nat}

theorem length_body_decodedOf : (decodedOf P s k).body.length = s.regs.msglen.toNat := by
  simp [decodedOf]

theorem decodeRecord_recordOf (hP : P.Lawful) (hnum : NumbersInv s) (hready : Spec.EncryptReady s) :
    decodeRecord s.cfg.flen (recordOf P s k) s.dlen s.ctrl.noempty = some (decodedOf P s k) := by
  obtain ⟨hp, -, hlen, hne, -⟩ := hready
  have hs := hnum.legal
  have hfield := toAffine_lt (hnum.modulus_pos hp) s.cfg.fieldBits (Spec.ephemeral s k)
  have hwidth := hnum.modulus_lt
  rw [← Config.pow_flen hs] at hwidth
  have hflen : 1 ≤ s.cfg.flen := by
    have := hnum.width_ge
    rw [Config.flen]
    omega
  refine decodeRecord_encodeRecord hflen (Config.flen_le hs) (hfield.1.trans hwidth) (hfield.2.trans hwidth)
    (hP.1 _ _ _) (Config.digestLen_le hs _) ?_ fun h => ?_
  · obtain ⟨-, -, -, ⟨-, hcap⟩, -⟩ := hs
    exact (length_body_decodedOf (P := P) (k := k)).trans_lt (by omega)
  · exact List.ne_nil_of_length_pos (length_body_decodedOf.trans_gt (Nat.pos_of_ne_zero (hne h)))

end

/-- `u` computes with the numbers and the hash of `s`. -/
structure SharesEngine (u s : State) : Prop where
  cfg : u.cfg = s.cfg
  params : u.params = s.params
  hsel : u.ctrl.hsel = s.ctrl.hsel

namespace SharesEngine

variable {P : Ports} {u s : State} {k : Nat} (h : SharesEngine u s)
include h

theorem isOnCurve_eq (x y : Nat) : u.isOnCurve x y = s.isOnCurve x y := by
  rw [State.isOnCurve, State.isOnCurve, h.params]

theorem scalarMul_eq (d : Nat) (T : Triple) : u.scalarMul d T = s.scalarMul d T := by
  rw [State.scalarMul, State.scalarMul, h.params, h.cfg]

theorem affine_eq (T : Triple) : u.affine T = s.affine T := by
  rw [State.affine, State.affine, h.params, h.cfg]

theorem hsel_eq : u.hsel = s.hsel := congrArg BitVec.toNat h.hsel

theorem dlen_eq : u.dlen = s.dlen := by
  rw [State.dlen, State.dlen, h.cfg, h.hsel_eq]

theorem hashOf_eq : Spec.hashOf P u = Spec.hashOf P s := by
  rw [Spec.hashOf, Spec.hashOf, h.cfg, h.hsel_eq]

/-- S as DECRYPT finds it in ENCRYPT's record. -/
theorem receivedPoint_eq : receivedPoint u (decodedOf P s k) =
    s.scalarMul u.keys.d ⟨(s.affine (Spec.ephemeral s k)).1, (s.affine (Spec.ephemeral s k)).2, 1⟩ :=
  h.scalarMul_eq _ _

variable (hS : s.affine (receivedPoint u (decodedOf P s k)) = s.affine (Spec.sharedPoint s k))
include hS

theorem xBytes_received : Spec.xBytes u (receivedPoint u (decodedOf P s k)) = Spec.xBytes s (Spec.sharedPoint s k) := by
  rw [Spec.xBytes, Spec.xBytes, h.affine_eq, hS, h.cfg]

theorem yBytes_received : Spec.yBytes u (receivedPoint u (decodedOf P s k)) = Spec.yBytes s (Spec.sharedPoint s k) := by
  rw [Spec.yBytes, Spec.yBytes, h.affine_eq, hS, h.cfg]

/-- The same S gives the same keystream, which takes itself off. -/
theorem candidate_eq : candidate P u (decodedOf P s k) = s.plaintext := by
  rw [candidate, h.hashOf_eq, h.xBytes_received hS, h.yBytes_received hS, h.cfg, h.hsel_eq, length_body_decodedOf]
  exact xorBytes_cancel _ _ (by simp)

theorem recomputedTag_eq : recomputedTag P u (decodedOf P s k) = (decodedOf P s k).tag := by
  rw [recomputedTag, h.hashOf_eq, h.xBytes_received hS, h.yBytes_received hS, h.candidate_eq hS]
  rfl

end SharesEngine

/-- DECRYPT finds ENCRYPT's record authentic, where the group law's consequence holds. -/
theorem authentic_decodedOf {P : Ports} {u s : State} {k : Nat} (h : SharesEngine u s) (hk : 1 ≤ k)
    (hkn : k < s.params.n) (hC1 : (Spec.ephemeral s k).z ≠ 0) (hS : (Spec.sharedPoint s k).z ≠ 0)
    (hagree : Spec.SharedPointAgrees s u.keys.d) :
    Authentic P u (decodedOf P s k) ∧ candidate P u (decodedOf P s k) = s.plaintext := by
  obtain ⟨hcurve, hfinite, haffine⟩ := hagree k hk hkn hC1 hS
  have hpoint := h.receivedPoint_eq (P := P) (k := k)
  have haffine' : s.affine (receivedPoint u (decodedOf P s k)) = s.affine (Spec.sharedPoint s k) := by
    rw [hpoint]
    exact haffine
  refine ⟨⟨(h.isOnCurve_eq _ _).trans hcurve, ?_, h.recomputedTag_eq haffine'⟩, h.candidate_eq haffine'⟩
  rw [hpoint]
  exact hfinite

/-- Settles O50: the record decodes to its own fields, and the shared point, hence the keystream and the digest, are
those of ENCRYPT. -/
theorem decryptInvertsEncrypt : Obligations.DecryptInvertsEncrypt := by
  refine ⟨fun s => ⟨rfl, rfl⟩, ?_⟩
  intro P s u hP hnum hmem hmemu _ hok hcfg hparams hhsel hne hp hreclen hread hd hdn hout hagree
  have h : SharesEngine u s := ⟨hcfg, hparams, hhsel⟩
  obtain ⟨hs, hwf, -⟩ := hmem
  obtain ⟨-, hwfu, -⟩ := hmemu
  obtain ⟨hready, k, att, cur, hk, hkn, hC1, hS, hend⟩ := encryptWith_completed hP hs hok
  obtain ⟨-, hh, hlen, -⟩ := id hready
  have hreclen' : u.regs.reclen.toNat = (recordOf P s k).length := by
    rw [hreclen, hend]
    exact toNat_length_recordOf hP hs hlen k
  have hrecord : u.recordBytes = recordOf P s k := by
    have hbytes : u.recordBytes = (encryptWith P s).mem.readBytes Buffer.record.base u.regs.reclen.toNat :=
      Memory.readBytes_congr hread
    rw [hbytes, hreclen', hend, State.complete_mem, State.setAtt_mem, State.putRecord_mem, State.setCursor_mem,
      Memory.readBytes_writeBytes hwf]
  obtain ⟨hauth, hcand⟩ := authentic_decodedOf (P := P) h hk hkn hC1 hS hagree
  have haccepts : Accepts u (decodedOf P s k) := by
    refine ⟨hcfg ▸ hs, firstFault_decryptChecks_eq_none.mpr ⟨hp, ?_, ⟨hd, hdn⟩, ?_⟩, ?_, ?_, ?_⟩
    · rwa [h.hsel_eq, hcfg]
    · rw [hreclen', hcfg]
      exact length_recordOf_le hP hs hlen k
    · rw [hrecord, h.dlen_eq, hcfg, hne]
      exact decodeRecord_recordOf hP hnum hready
    · rwa [length_body_decodedOf]
    · rwa [length_body_decodedOf, hcfg]
  rw [haccepts.decryptWith_of_authentic hP hauth, hcand]
  refine ⟨endsOk_complete rfl rfl rfl rfl, by simp, fun i hi => ?_⟩
  show (u.mem.writeBytes Buffer.msg.base s.plaintext).read (Buffer.msg.base + i) = s.mem.read (Buffer.msg.base + i)
  rw [Memory.read_writeBytes _ _ _ _ hwfu, if_pos (by simpa using hi), Nat.add_sub_cancel_left]
  exact Memory.getD_readBytes _ _ hi

end Sys2Proof.Machine

namespace Sys2Proof.Machine

/-! ## Draws (45_engine.md R231, R232) -/

section
variable {P : Ports} {s : State} {c : Cursor}

theorem State.drawFrom_test_delivers (ht : s.testrng = true)
    (h : c.rngpos.toNat + s.cfg.flen ≤ s.regs.rnglen.toNat) : s.drawFrom P c =
      (some (os2ip (s.mem.readBytes (Buffer.rngbuf.base + c.rngpos.toNat) s.cfg.flen)),
        { c with rngpos := BitVec.ofNat 9 (c.rngpos.toNat + s.cfg.flen) }) := by
  simp [State.drawFrom, ht, h]

theorem State.drawFrom_test_refuses (ht : s.testrng = true)
    (h : c.rngpos.toNat + s.cfg.flen > s.regs.rnglen.toNat) : s.drawFrom P c = (none, c) := by
  simp [State.drawFrom, ht, h]

theorem State.drawFrom_production (ht : s.testrng = false) :
    s.drawFrom P c = ((P.rng c.freeCtr s.cfg.flen).map os2ip, { c with freeCtr := c.freeCtr + 1 }) := by
  simp [State.drawFrom, ht]

theorem drawWith_delivered {rd : FReg} {k : Nat} (h : s.drawFrom P s.cursor = (some k, c)) :
    drawWith P rd s = ((s.setCursor c).setF rd k).complete := by
  rw [drawWith, h]

theorem drawWith_refused {rd : FReg} (h : s.drawFrom P s.cursor = (none, c)) :
    drawWith P rd s = (s.setCursor c).raise .randomnessExhausted := by
  rw [drawWith, h]

theorem getF_drawn_same (rd : FReg) (k : Nat) : ((s.setCursor c).setF rd k).complete.getF rd = k :=
  State.getF_setF_same _ rd k

theorem getF_drawn_other {rd r : FReg} (k : Nat) (h : r ≠ rd) :
    ((s.setCursor c).setF rd k).complete.getF r = s.getF r :=
  State.getF_setF_other _ rd r k h

end

/-- Settles O23: the test source by its two cases; with the production source, what the free port answers decides. -/
theorem drawDeliversOrFaults : Obligations.DrawDeliversOrFaults := by
  intro rd s
  refine ⟨decode_encode (.draw rd) rfl, fun ht hle => ?_, fun ht hgt => ?_, fun ht => ?_⟩
  · have hdraw := s.drawFrom_test_delivers (P := .free) (c := s.cursor) ht hle
    have hpos : (BitVec.ofNat 9 (s.regs.rngpos.toNat + s.cfg.flen)).toNat = s.regs.rngpos.toNat + s.cfg.flen :=
      Nat.mod_eq_of_lt (hle.trans_lt s.regs.rnglen.isLt)
    exact ⟨_, congrArg Host.Outcome.next (drawWith_delivered hdraw), endsOk_complete rfl rfl rfl rfl,
      ⟨rfl, rfl, rfl, rfl⟩, getF_drawn_same rd _, fun r h => getF_drawn_other _ h, hpos, rfl, rfl, rfl, rfl,
      fun _ => rfl⟩
  · have hdraw := s.drawFrom_test_refuses (P := .free) (c := s.cursor) ht hgt
    exact ⟨_, congrArg Host.Outcome.next (drawWith_refused hdraw), faultsWith_raise _ s⟩
  · have hdraw := s.drawFrom_production (P := .free) (c := s.cursor) ht
    cases hrng : Ports.free.rng s.freeCtr s.cfg.flen with
    | none =>
      have hrefused : s.drawFrom .free s.cursor = (none, ⟨s.regs.rngpos, s.freeCtr + 1⟩) := by
        rw [hdraw, State.cursor, hrng]
        rfl
      exact ⟨_, congrArg Host.Outcome.next (drawWith_refused hrefused), ⟨rfl, rfl, rfl, rfl⟩, rfl, rfl, rfl,
        fun _ => rfl, fun _ _ => rfl, rfl, ⟨⟨rfl, rfl, rfl, rfl, rfl, rfl, rfl, rfl⟩, rfl, rfl⟩, rfl, rfl⟩
    | some bs =>
      have hdelivered : s.drawFrom .free s.cursor = (some (os2ip bs), ⟨s.regs.rngpos, s.freeCtr + 1⟩) := by
        rw [hdraw, State.cursor, hrng]
        rfl
      exact ⟨_, congrArg Host.Outcome.next (drawWith_delivered hdelivered), ⟨rfl, rfl, rfl, rfl⟩, rfl, rfl, rfl,
        fun _ => rfl, fun r h => getF_drawn_other _ h, rfl, endsOk_complete rfl rfl rfl rfl, getF_drawn_same rd _,
        Ports.free_lawful.2 _ _ _ hrng, rfl⟩

/-! ## The retry loop over given draws (45_engine.md R235) -/

/-- The cursors after `delivered` draws delivered in `asked` requests, from those of the state. -/
def cursorMoved (s : State) (delivered asked : Nat) : Cursor :=
  if s.testrng then ⟨BitVec.ofNat 9 (s.regs.rngpos.toNat + delivered * s.cfg.flen), s.freeCtr⟩
  else ⟨s.regs.rngpos, s.freeCtr + asked⟩

/-- What the test source has delivered lies before RNGLEN, so RNGPOS has not wrapped. -/
def CursorInRange (s : State) (delivered : Nat) : Prop :=
  s.testrng = true → s.regs.rngpos.toNat + delivered * s.cfg.flen < 2 ^ 9

theorem cursorMoved_zero (s : State) : cursorMoved s 0 0 = s.cursor := by
  cases ht : s.testrng <;> simp [cursorMoved, State.cursor, ht]

theorem toNat_rngpos_cursorMoved {s : State} {m : Nat} (h : CursorInRange s m) (a : Nat) :
    (cursorMoved s m a).rngpos.toNat = s.regs.rngpos.toNat + if s.testrng then m * s.cfg.flen else 0 := by
  cases ht : s.testrng with
  | false => simp [cursorMoved, ht]
  | true => simpa [cursorMoved, ht] using Nat.mod_eq_of_lt (h ht)

theorem freeCtr_cursorMoved (s : State) (m a : Nat) :
    (cursorMoved s m a).freeCtr = s.freeCtr + if s.testrng then 0 else a := by
  cases ht : s.testrng <;> simp [cursorMoved, ht]

section
variable {P : Ports} {s : State} {n : Nat} {k : Nat → Nat}

theorem drawsAre_mono {m : Nat} (h : Spec.DrawsAre P s n k) (hm : m ≤ n) : Spec.DrawsAre P s m k :=
  fun j hj => h j (hj.trans_le hm)

theorem cursorInRange_of_drawsAre (h : Spec.DrawsAre P s n k) : CursorInRange s n := by
  intro ht
  cases n with
  | zero => simpa using s.regs.rngpos.isLt
  | succ n => exact (((h n n.lt_succ_self).1 ht).1).trans_lt s.regs.rnglen.isLt

theorem drawFrom_cursorMoved_delivers (h : Spec.DrawsAre P s (n + 1) k) :
    s.drawFrom P (cursorMoved s n n) = (some (k n), cursorMoved s (n + 1) (n + 1)) := by
  have hpos := toNat_rngpos_cursorMoved (cursorInRange_of_drawsAre (drawsAre_mono h n.le_succ)) n
  obtain ⟨htest, hproduction⟩ := h n n.lt_succ_self
  cases ht : s.testrng with
  | true =>
    obtain ⟨hle, hk⟩ := htest ht
    rw [ht, if_pos rfl] at hpos
    rw [Nat.succ_mul, ← Nat.add_assoc] at hle
    rw [State.drawFrom_test_delivers ht (by rwa [hpos]), hpos, hk]
    simp [cursorMoved, ht, Memory.readBytes, Buffer.base, Nat.succ_mul, Nat.add_assoc]
  | false =>
    obtain ⟨bs, hbs, hk⟩ := hproduction ht
    rw [State.drawFrom_production ht]
    simp [cursorMoved, ht, hbs, hk, Nat.add_assoc]

theorem drawFrom_cursorMoved_refuses (h : Spec.DrawsAre P s n k) (hr : Spec.RefusesAfter P s n) :
    s.drawFrom P (cursorMoved s n n) = (none, cursorMoved s n (n + 1)) := by
  have hpos := toNat_rngpos_cursorMoved (cursorInRange_of_drawsAre h) n
  obtain ⟨htest, hproduction⟩ := hr
  cases ht : s.testrng with
  | true =>
    have hgt := htest ht
    rw [ht, if_pos rfl] at hpos
    rw [Nat.succ_mul, ← Nat.add_assoc] at hgt
    rw [State.drawFrom_test_refuses ht (by rwa [hpos])]
    simp [cursorMoved, ht]
  | false =>
    rw [State.drawFrom_production ht]
    simp [cursorMoved, ht, hproduction ht, Nat.add_assoc]

/-- R235's all-zero test, byte by byte. -/
theorem allZero_iff {t : List Byte} {L : Nat} (hlen : t.length = L) :
    allZero t L = true ↔ 0 < L ∧ ∀ i, i < L → t.getD i 0 = 0 := by
  subst hlen
  simp only [allZero, Bool.and_eq_true, decide_eq_true_eq, List.all_eq_true, beq_iff_eq]
  refine and_congr_right fun _ => ⟨fun h i hi => ?_, fun h b hb => ?_⟩
  · rw [List.getD_eq_getElem _ _ hi]
    exact h _ (List.getElem_mem hi)
  · obtain ⟨i, hi, rfl⟩ := List.getElem_of_mem hb
    rw [← h i hi, List.getD_eq_getElem _ _ hi]

section
variable (hP : P.Lawful) (hD : 1 ≤ s.dlen)
include hP hD

theorem attempt_of_rejected {v : Nat} (h : Spec.Rejected P s v) (hv : validScalar s.params.n v = true) :
    attempt P s s.regs.msglen.toNat v = .redraw := by
  rw [attempt_eq hP hD]
  rcases h with h | ⟨hC1, hS | hz⟩
  · exact absurd (by simpa [validScalar] using hv) h
  · rw [if_neg hC1, if_pos hS]
  · rw [if_neg hC1, if_pos ((allZero_iff (length_streamOf P s v)).mpr hz), ite_self]

theorem encryptLoop_passed {v fuel att : Nat} {c c' : Cursor}
    (hd : s.drawFrom P c = (some v, c')) (h : Spec.Rejected P s v) :
    encryptLoop P s s.regs.msglen.toNat (fuel + 1) att c =
      encryptLoop P s s.regs.msglen.toNat fuel (att + 1) c' := by
  cases hv : validScalar s.params.n v with
  | false => exact encryptLoop_invalid hd hv
  | true =>
    rw [encryptLoop_valid hd hv, attempt_of_rejected hP hD h hv]
    rfl

theorem attempt_of_usable {v : Nat} (h : Spec.Usable P s v) :
    validScalar s.params.n v = true ∧ attempt P s s.regs.msglen.toNat v = .found (sharedOf P s v) := by
  obtain ⟨hv, hvn, hC1, hS, hstream⟩ := h
  have hz : ¬ allZero (Spec.streamOf P s v) s.regs.msglen.toNat = true := by
    rw [allZero_iff (length_streamOf P s v)]
    rintro ⟨hpos, hzero⟩
    rcases hstream with hempty | ⟨i, hi, hne⟩
    · omega
    · exact hne (hzero i hi)
  exact ⟨by simp [validScalar, hv, hvn], by rw [attempt_eq hP hD, if_neg hC1, if_neg hS, if_neg hz]⟩

/-- Rejected draws cost one attempt each and move the cursors on. -/
theorem encryptLoop_rejected (hdraws : Spec.DrawsAre P s n k) (hrej : ∀ j, j < n → Spec.Rejected P s (k j))
    (fuel : Nat) : encryptLoop P s s.regs.msglen.toNat (n + fuel) 0 s.cursor =
      encryptLoop P s s.regs.msglen.toNat fuel n (cursorMoved s n n) := by
  induction n generalizing fuel with
  | zero => rw [cursorMoved_zero, Nat.zero_add]
  | succ n ih =>
    have hbefore := ih (drawsAre_mono hdraws n.le_succ) (fun j hj => hrej j (hj.trans n.lt_succ_self)) (fuel + 1)
    rw [Nat.add_assoc, Nat.add_comm 1, hbefore,
      encryptLoop_passed hP hD (drawFrom_cursorMoved_delivers hdraws) (hrej n n.lt_succ_self)]

end
end
end Sys2Proof.Machine

namespace Sys2Proof.Machine

/-! ## How ENCRYPT ends after rejected draws (45_engine.md R235, R236) -/

section
variable {P : Ports} {s : State} {n : Nat} {k : Nat → Nat}

section
variable (hP : P.Lawful) (hs : s.cfg.Legal) (hready : Spec.EncryptReady s)
  (hrej : ∀ j, j < n → Spec.Rejected P s (k j))
include hP hs hready hrej

/-- When `n` draws are rejected, the retry loop goes on from there with the draws left of MAXATT. -/
theorem encryptWith_rejected {fuel : Nat} (hfuel : n + fuel = s.regs.maxatt.toNat) (hdraws : Spec.DrawsAre P s n k) :
    encryptWith P s = encryptEnd P s (encryptLoop P s s.regs.msglen.toNat fuel n (cursorMoved s n n)) := by
  have hD := one_le_dlen_of_encryptReady hs hready
  rw [encryptWith_of_none P ((firstFault_encryptChecks_eq_none hs).mpr hready), ← hfuel,
    encryptLoop_rejected hP hD hdraws hrej]

theorem encryptWith_exhausted (hn : n = s.regs.maxatt.toNat) (hdraws : Spec.DrawsAre P s n k) :
    encryptWith P s = encryptEnd P s ⟨.error .randomnessExhausted, n, cursorMoved s n n⟩ :=
  encryptWith_rejected hP hs hready hrej (fuel := 0) hn hdraws

variable (hn : n < s.regs.maxatt.toNat)
include hn

theorem encryptWith_refused (hdraws : Spec.DrawsAre P s n k) (hrefuse : Spec.RefusesAfter P s n) :
    encryptWith P s = encryptEnd P s ⟨.error .randomnessExhausted, n + 1, cursorMoved s n (n + 1)⟩ := by
  obtain ⟨fuel, hfuel⟩ := Nat.exists_eq_add_of_lt hn
  rw [encryptWith_rejected hP hs hready hrej (fuel := fuel + 1) hfuel.symm hdraws,
    encryptLoop_refused (drawFrom_cursorMoved_refuses hdraws hrefuse)]

variable (hdraws : Spec.DrawsAre P s (n + 1) k)
include hdraws

theorem encryptWith_c1Infinite (hv : validScalar s.params.n (k n) = true) (hC1 : (Spec.ephemeral s (k n)).z = 0) :
    encryptWith P s = encryptEnd P s ⟨.error .pointAtInfinity, n + 1, cursorMoved s (n + 1) (n + 1)⟩ := by
  obtain ⟨fuel, hfuel⟩ := Nat.exists_eq_add_of_lt hn
  have hattempt := attempt_eq hP (one_le_dlen_of_encryptReady hs hready) (k := k n)
  rw [if_pos hC1] at hattempt
  rw [encryptWith_rejected hP hs hready hrej (fuel := fuel + 1) hfuel.symm (drawsAre_mono hdraws n.le_succ),
    encryptLoop_valid (drawFrom_cursorMoved_delivers hdraws) hv, hattempt]
  rfl

theorem encryptWith_found (husable : Spec.Usable P s (k n)) :
    encryptWith P s = encryptEnd P s ⟨.ok (sharedOf P s (k n)), n + 1, cursorMoved s (n + 1) (n + 1)⟩ := by
  obtain ⟨fuel, hfuel⟩ := Nat.exists_eq_add_of_lt hn
  obtain ⟨hv, hattempt⟩ := attempt_of_usable hP (one_le_dlen_of_encryptReady hs hready) husable
  rw [encryptWith_rejected hP hs hready hrej (fuel := fuel + 1) hfuel.symm (drawsAre_mono hdraws n.le_succ),
    encryptLoop_valid (drawFrom_cursorMoved_delivers hdraws) hv, hattempt]
  rfl

end

/-! ### What the two ends leave -/

theorem cursorsMoved_encryptEnd {m : Nat} (h : CursorInRange s m) (a att : Nat) (res : Except CmdFault Shared) :
    Spec.CursorsMoved s (encryptEnd P s ⟨res, att, cursorMoved s m a⟩) m a := by
  cases res <;> exact ⟨toNat_rngpos_cursorMoved h a, freeCtr_cursorMoved s m a⟩

theorem encryptFails_encryptEnd {att : Nat} (hatt : att < 2 ^ 8) (F : CmdFault) (cur : Cursor) :
    EncryptFails F att s (encryptEnd P s ⟨.error F, att, cur⟩) :=
  ⟨⟨⟨rfl, rfl, rfl, rfl, rfl, rfl, rfl, rfl⟩, rfl, rfl⟩, ⟨rfl, rfl, rfl, rfl⟩, rfl, Nat.mod_eq_of_lt hatt, rfl, rfl,
    rfl, rfl, fun a => Memory.read_clear s.mem _ _ a⟩

/-- What ENCRYPT leaves when it completes, wherever the draws have moved the cursors to. -/
theorem frame_stored (hwf : s.mem.wf = true) (cur : Cursor) (r : List Byte) (att : Nat) :
    let t := (((s.setCursor cur).putRecord r).setAtt att).complete
    EndsOk s t ∧ SameSetup s t ∧ t.regs.reclen = BitVec.ofNat 32 r.length ∧ t.regs.att = BitVec.ofNat 8 att ∧
      t.regs = { s.regs with reclen := t.regs.reclen, rngpos := t.regs.rngpos, att := t.regs.att } ∧
      t.f = s.f ∧ t.pt = s.pt ∧ t.flags = s.flags ∧ StoredAt s t Buffer.record.base r :=
  ⟨endsOk_complete (by simp) (by simp) (by simp) (by simp), by simp [SameSetup], by simp, by simp, by simp, by simp,
    by simp, by simp, fun a => by simpa using Memory.read_writeBytes s.mem Buffer.record.base r a hwf⟩

end

/-- Settles O24: after the rejected draws the usable one ends the loop, and its record is stored. -/
theorem encryptStoresTheRecord : Obligations.EncryptStoresTheRecord := by
  refine ⟨fun _ => rfl, Ports.free_lawful, ?_⟩
  intro P s n k hP hmem hready hn hdraws hrej husable M C1 S r t
  obtain ⟨hs, hwf, -⟩ := hmem
  obtain ⟨-, -, hlen, -⟩ := id hready
  have hend : t = encryptEnd P s ⟨.ok (sharedOf P s (k n)), n + 1, cursorMoved s (n + 1) (n + 1)⟩ :=
    encryptWith_found hP hs hready hrej hn hdraws husable
  have hmoved : Spec.CursorsMoved s t (n + 1) (n + 1) := by
    rw [hend]
    exact cursorsMoved_encryptEnd (cursorInRange_of_drawsAre hdraws) (n + 1) (n + 1) _
  have hframe := frame_stored hwf (cursorMoved s (n + 1) (n + 1)) r (n + 1)
  rw [show (((s.setCursor (cursorMoved s (n + 1) (n + 1))).putRecord r).setAtt (n + 1)).complete = t from hend.symm]
    at hframe
  obtain ⟨hok, hsetup, hreclen, hatt, hregs, hf, hpt, hflags, hstored⟩ := hframe
  refine ⟨hok, hsetup, ?_, ?_, hmoved, hregs, hf, hpt, hflags, hstored⟩
  · rw [hreclen]
    exact toNat_length_recordOf hP hs hlen (k n)
  · rw [hatt]
    exact Nat.mod_eq_of_lt (by omega)

/-! ## When a check of ENCRYPT fails (45_engine.md R235, 60_exceptions.md R263) -/

section
variable {s : State}

/-- After the two shared checks: the length, then OUTCAP, then the curve. -/
theorem firstFault_encryptChecks (hp : s.status.pvalid = true) (hh : s.hsel < s.cfg.nhash) :
    firstFault (encryptChecks s) =
      if s.regs.msglen.toNat > s.cfg.msgCap ∨ (s.ctrl.noempty = true ∧ s.regs.msglen.toNat = 0) ∨
        s.regs.msglen.toNat > 2 ^ 32 * s.dlen then some .invalidLength
      else if s.regs.outcap.toNat < wcs s.cfg.flen s.dlen s.regs.msglen.toNat then some .bufferTooSmall
      else if s.isOnCurve s.keys.qx s.keys.qy = false then some .invalidCurvePoint
      else none := by
  rw [encryptChecks, firstFault_needParams_holds hp, firstFault_needHash_holds hh]
  simp only [firstFault, needMsgLen, State.needKdfLen, ite_or, decide_eq_true_eq, Bool.and_eq_true, beq_iff_eq,
    Bool.not_eq_true']

/-- With a legal length, R193's bound included: OUTCAP, then the curve. -/
theorem firstFault_encryptChecks_of_length (hs : s.cfg.Legal) (hp : s.status.pvalid = true)
    (hh : s.hsel < s.cfg.nhash) (hlen : s.regs.msglen.toNat ≤ s.cfg.msgCap)
    (hne : s.ctrl.noempty = true → s.regs.msglen.toNat ≠ 0) :
    firstFault (encryptChecks s) =
      if s.regs.outcap.toNat < wcs s.cfg.flen s.dlen s.regs.msglen.toNat then some .bufferTooSmall
      else if s.isOnCurve s.keys.qx s.keys.qy = false then some .invalidCurvePoint
      else none := by
  have hD : 1 ≤ s.dlen := Config.one_le_digestLen hs hh
  have hL := s.regs.msglen.isLt
  refine (firstFault_encryptChecks hp hh).trans (if_neg ?_)
  rintro (h | ⟨h, h0⟩ | h)
  · exact hlen.not_gt h
  · exact hne h h0
  · omega

theorem encrypt_of_check {F : CmdFault} (h : firstFault (encryptChecks s) = some F) :
    ∃ t, exec .encrypt s = .next t ∧ EncryptFails F 0 s t ∧ Spec.CursorsMoved s t 0 0 :=
  ⟨_, congrArg Host.Outcome.next (encryptWith_of_fault .free h),
    encryptFails_encryptEnd (P := .free) (by norm_num) F s.cursor, by simp [Spec.CursorsMoved]⟩

theorem encryptLoop_att_le (P : Ports) (s : State) (L fuel att : Nat) (c : Cursor) :
    (encryptLoop P s L fuel att c).att ≤ att + fuel := by
  induction fuel generalizing att c with
  | zero => exact le_rfl
  | succ fuel ih =>
    have hagain (c' : Cursor) : (encryptLoop P s L fuel (att + 1) c').att ≤ att + (fuel + 1) :=
      (ih (att + 1) c').trans (by omega)
    simp only [encryptLoop]
    have hone : att + 1 ≤ att + (fuel + 1) := by omega
    split
    · exact hone
    split
    · exact hagain _
    split
    · exact hone
    · exact hagain _
    · exact hone

/-- ENCRYPT with a fault, whichever it is. -/
theorem encryptWith_faulted (P : Ports) (herr : s.status.err = false) (h : (encryptWith P s).status.err = true) :
    ∃ F ∈ mayRaise .encrypt, ∃ att ≤ s.regs.maxatt.toNat, EncryptFails F att s (encryptWith P s) := by
  cases hfault : firstFault (encryptChecks s) with
  | some F =>
    rw [encryptWith_of_fault P hfault]
    exact ⟨F, encryptChecks_listed s _ (firstFault_mem hfault), 0, Nat.zero_le _,
      encryptFails_encryptEnd (P := P) (by norm_num) F s.cursor⟩
  | none =>
    rw [encryptWith_of_none P hfault] at h ⊢
    have hatt := encryptLoop_att_le P s s.regs.msglen.toNat s.regs.maxatt.toNat 0 s.cursor
    rw [Nat.zero_add] at hatt
    rcases hend : encryptLoop P s s.regs.msglen.toNat s.regs.maxatt.toNat 0 s.cursor with ⟨F | r, att, cur⟩
    · rw [hend] at hatt
      refine ⟨F, ?_, att, hatt, encryptFails_encryptEnd (hatt.trans_lt s.regs.maxatt.isLt) F cur⟩
      rcases encryptLoop_error (congrArg LoopEnd.result hend) with rfl | rfl <;> decide
    · rw [hend] at h
      exact absurd (herr.symm.trans h) Bool.false_ne_true

end

/-- Settles O25: the first failing check, the three ends of the loop over given draws, and what every fault writes. -/
theorem encryptFaultsClearTheRecord : Obligations.EncryptFaultsClearTheRecord := by
  refine ⟨?_, ⟨fun _ => rfl, Ports.free_lawful⟩, ?_, ?_⟩
  · intro s D L checkFault
    refine ⟨fun hp => encrypt_of_check (firstFault_needParams_fails hp _), fun hp hh => encrypt_of_check ?_,
      fun hp hh hlen => encrypt_of_check ?_, fun hs hp hh hlen hne => ?_⟩
    · exact (firstFault_needParams_holds hp).trans (firstFault_needHash_fails hh _)
    · rw [firstFault_encryptChecks hp hh, if_pos (hlen.imp_right .inl)]
    · have hfirst := firstFault_encryptChecks_of_length hs hp hh hlen hne
      refine ⟨fun hout => encrypt_of_check (hfirst.trans (if_pos hout)), fun hout hcurve => encrypt_of_check ?_,
        fun hout hcurve hmax => ?_⟩
      · exact (hfirst.trans (if_neg hout.not_gt)).trans (if_pos hcurve)
      · have hready : Spec.EncryptReady s := ⟨hp, hh, hlen, hne, hout, hcurve⟩
        have hend := encryptWith_exhausted (n := 0) (k := id) Ports.free_lawful hs hready (by simp) (by simp [hmax])
          (by simp [Spec.DrawsAre])
        refine ⟨_, congrArg Host.Outcome.next hend, encryptFails_encryptEnd (by norm_num) _ _, ?_⟩
        exact cursorsMoved_encryptEnd (fun _ => by simpa using s.regs.rngpos.isLt) 0 0 _
  · intro P s n k t hP hs hready hrej
    have hmax := s.regs.maxatt.isLt
    refine ⟨fun hn hdraws => ?_, fun hn hdraws hrefuse => ?_, fun hn hdraws hk hkn hC1 => ?_⟩
    · have ht : t = _ := encryptWith_exhausted hP hs hready hrej hn hdraws
      rw [ht]
      exact ⟨encryptFails_encryptEnd (by omega) _ _, cursorsMoved_encryptEnd (cursorInRange_of_drawsAre hdraws) _ _ _⟩
    · have ht : t = _ := encryptWith_refused hP hs hready hrej hn hdraws hrefuse
      rw [ht]
      exact ⟨encryptFails_encryptEnd (by omega) _ _, cursorsMoved_encryptEnd (cursorInRange_of_drawsAre hdraws) _ _ _⟩
    · have ht : t = _ := encryptWith_c1Infinite hP hs hready hrej hn hdraws (by simp [validScalar, hk, hkn]) hC1
      rw [ht]
      exact ⟨encryptFails_encryptEnd (by omega) _ _, cursorsMoved_encryptEnd (cursorInRange_of_drawsAre hdraws) _ _ _⟩
  · intro s t herr hexec hfaulted
    obtain rfl := Host.Outcome.next.inj hexec
    obtain ⟨F, hF, att, hatt, hends, hsetup, hpvalid, rfl, hregs, hf, hpt, hflags, hmem⟩ :=
      encryptWith_faulted .free herr hfaulted
    have hreclen := congrArg Regs.reclen hregs
    refine ⟨⟨F, hF, hends⟩, hsetup, hpvalid, hreclen, hatt, ?_, hf, hpt, hflags, hmem⟩
    obtain ⟨-, -, hcode⟩ := hends
    rwa [hcode]

end Sys2Proof.Machine

namespace Sys2Proof.Machine

/-! ## How DECRYPT ends (45_engine.md R245 to R247, 60_exceptions.md R263, R270) -/

section
variable {s : State}

theorem storeResult_putMessage (hwf : s.mem.wf = true) (m : List Byte) :
    StoreResult s (s.putMessage m).complete Buffer.msg.base m
      { s.regs with msglen := (s.putMessage m).complete.regs.msglen } :=
  ⟨endsOk_complete rfl rfl rfl rfl, ⟨rfl, rfl, rfl, rfl⟩, rfl, rfl, rfl, rfl, rfl,
    fun a => Memory.read_writeBytes s.mem Buffer.msg.base m a hwf⟩

theorem decryptFails_decryptFail (s : State) (F : CmdFault) : DecryptFails F s (decryptFail s F) :=
  ⟨⟨⟨rfl, rfl, rfl, rfl, rfl, rfl, rfl, rfl⟩, rfl, rfl⟩, ⟨rfl, rfl, rfl, rfl⟩, rfl, rfl, rfl, rfl, rfl, rfl,
    fun a => Memory.read_clear s.mem _ _ a⟩

theorem decrypt_fails {F : CmdFault} (h : decryptWith .free s = decryptFail s F) :
    ∃ t, exec .decrypt s = .next t ∧ DecryptFails F s t :=
  ⟨_, congrArg Host.Outcome.next h, decryptFails_decryptFail s F⟩

/-- A check of R245 that fails ends DECRYPT with its fault. -/
theorem decrypt_of_check {F : CmdFault} (h : decryptCheck s = .error F) :
    ∃ t, exec .decrypt s = .next t ∧ DecryptFails F s t :=
  decrypt_fails (decryptWith_of_error (decryptResult_of_check_error h))

theorem firstFault_decryptChecks_scalar (hp : s.status.pvalid = true) (hh : s.hsel < s.cfg.nhash)
    (hd : ¬ (1 ≤ s.keys.d ∧ s.keys.d ≤ s.params.n - 1)) :
    firstFault (decryptChecks s) = some .invalidScalar := by
  rw [decryptChecks, firstFault_needParams_holds hp, firstFault_needHash_holds hh,
    Bool.eq_false_iff.mpr (mt validScalar_iff.mp hd)]
  rfl

theorem firstFault_decryptChecks_reclen (hp : s.status.pvalid = true) (hh : s.hsel < s.cfg.nhash)
    (hd : 1 ≤ s.keys.d) (hdn : s.keys.d < s.params.n) (hlen : s.regs.reclen.toNat > s.cfg.recCap) :
    firstFault (decryptChecks s) = some .invalidLength := by
  have hvalid : validScalar s.params.n s.keys.d = true := by simp [validScalar, hd, hdn]
  rw [decryptChecks, firstFault_needParams_holds hp, firstFault_needHash_holds hh, hvalid]
  exact firstFault_needRecLen_fails hlen

theorem firstFault_decryptLenChecks_outcap {L : Nat} (hout : s.regs.outcap.toNat < L) :
    firstFault (decryptLenChecks s L) = some .bufferTooSmall := by
  rw [decryptLenChecks, decide_eq_true hout, firstFault_cons_bad]

theorem firstFault_decryptLenChecks_msgCap {L : Nat} (hout : L ≤ s.regs.outcap.toNat) (hcap : L > s.cfg.msgCap) :
    firstFault (decryptLenChecks s L) = some .invalidLength := by
  rw [decryptLenChecks, decide_eq_false hout.not_gt, firstFault_cons_good, decide_eq_true hcap, firstFault_cons_bad]

/-- R263: DECRYPT's faults are those of its list. -/
theorem decryptResult_error {P : Ports} {F : CmdFault} (h : decryptResult P s = .error F) : F ∈ mayRaise .decrypt := by
  simp only [decryptResult] at h
  split at h
  · next hc => exact Except.error.inj h ▸ decryptCheck_error hc
  split at h
  · rw [← Except.error.inj h]
    decide
  · rw [decryptBody_error h]
    decide

end

/-- Settles O26: an accepted and authentic record ends DECRYPT with the candidate message. -/
theorem decryptStoresTheMessage : Obligations.DecryptStoresTheMessage := by
  intro s r D H S x2 y2 M hmem hp hh hd hdn hreclen hr hout hcap hcurve hS htag
  obtain ⟨hs, hwf, -⟩ := hmem
  have haccepts : Accepts s r :=
    ⟨hs, firstFault_decryptChecks_eq_none.mpr ⟨hp, hh, ⟨hd, hdn⟩, hreclen⟩, hr, hout, hcap⟩
  have hexec : exec .decrypt s = .next (s.putMessage M).complete :=
    congrArg Host.Outcome.next (haccepts.decryptWith_of_authentic Ports.free_lawful ⟨hcurve, hS, htag⟩)
  have hlen : M.length = r.body.length := length_candidate (P := .free)
  have hmsglen : (s.putMessage M).complete.regs.msglen.toNat = r.body.length := by
    rw [State.complete_regs, State.putMessage_regs, ← hlen]
    exact Nat.mod_eq_of_lt (by have := s.regs.outcap.isLt; omega)
  exact ⟨hlen, _, hexec, hmsglen, storeResult_putMessage hwf M⟩

/-- Settles O27: the first failing check; the three causes as one case; and what every fault writes. -/
theorem decryptFaultsAlikeAndClearsTheMessage : Obligations.DecryptFaultsAlikeAndClearsTheMessage := by
  refine ⟨?_, ?_, ?_⟩
  · intro s D buf fails
    refine ⟨fun hp => decrypt_of_check (decryptCheck_faulted (firstFault_needParams_fails hp _)),
      fun hp hh => decrypt_of_check (decryptCheck_faulted ?_),
      fun hp hh hd => decrypt_of_check (decryptCheck_faulted (firstFault_decryptChecks_scalar hp hh hd)),
      fun hp hh hd hdn => ⟨fun hlen => decrypt_of_check (decryptCheck_faulted ?_), fun hlen => ?_⟩⟩
    · exact (firstFault_needParams_holds hp).trans (firstFault_needHash_fails hh _)
    · exact firstFault_decryptChecks_reclen hp hh hd hdn hlen
    · have hchecks := firstFault_decryptChecks_eq_none.mpr ⟨hp, hh, ⟨hd, hdn⟩, hlen⟩
      refine ⟨fun hplain => decrypt_of_check (decryptCheck_badFraming hchecks hplain), fun L hplain => ⟨fun hout => ?_,
        fun hout hcap => ?_, fun hs hout hcap hr => ?_⟩⟩
      · exact decrypt_of_check (decryptCheck_badLength hchecks hplain (firstFault_decryptLenChecks_outcap hout))
      · exact decrypt_of_check (decryptCheck_badLength hchecks hplain (firstFault_decryptLenChecks_msgCap hout hcap))
      · have hpassed := decryptCheck_passed hchecks hplain
          ((firstFault_decryptLenChecks_eq_none hs hh).mpr ⟨hout, hcap⟩)
        exact decrypt_fails (decryptWith_of_error (decryptResult_of_not_decoded hpassed hr))
  · intro s r D H S x2 y2 M hs hp hh hd hdn hreclen hr hout hcap hcause
    have haccepts : Accepts s r :=
      ⟨hs, firstFault_decryptChecks_eq_none.mpr ⟨hp, hh, ⟨hd, hdn⟩, hreclen⟩, hr, hout, hcap⟩
    have hnot : ¬ Authentic .free s r := by
      rintro ⟨hcurve, hS, htag⟩
      rcases hcause with hoff | hinf | hdiffers
      · exact Bool.false_ne_true (hoff.symm.trans hcurve)
      · exact hS hinf
      · exact hdiffers htag
    exact decrypt_fails (haccepts.decryptWith_of_not_authentic Ports.free_lawful hnot)
  · intro s t herr hexec hfaulted
    obtain rfl := Host.Outcome.next.inj hexec
    cases hresult : decryptResult .free s with
    | error F =>
      have hF := decryptResult_error hresult
      have ht : decryptWith .free s = decryptFail s F := decryptWith_of_error hresult
      refine ⟨F, hF, ?_, ?_, ht ▸ decryptFails_decryptFail s F⟩
      · rintro rfl
        exact absurd hF (by decide)
      · rintro rfl
        exact absurd hF (by decide)
    | ok m =>
      have ht : decryptWith .free s = (s.putMessage m).complete := decryptWith_of_ok hresult
      rw [ht] at hfaulted
      exact absurd (herr.symm.trans hfaulted) Bool.false_ne_true

end Sys2Proof.Machine

namespace Sys2Proof.Machine

/-! ## Every command ends idle (60_exceptions.md R260, R262, R271) -/

section
variable {s u : State} {i : Instr}

/-- A fault ends the command as completion does (R262), whatever it has written before. -/
theorem endsIdle_raise (F : CmdFault) (hdrop : u.status.drop = s.status.drop) (hcfg : u.cfg = s.cfg)
    (hturns : u.turns = s.turns) (hreply : u.reply = s.reply) : EndsIdle s (u.raise F) :=
  ⟨rfl, rfl, hdrop, rfl, rfl, hcfg, hturns, hreply⟩

/-- No command's writes reach DROP, the configuration, the turns or the reply. -/
theorem CommandWrites.endsIdle (h : CommandWrites s i u) : EndsIdle s u.complete := by
  cases h <;> exact endsIdle_complete rfl rfl rfl rfl

/-- Nor do the writes of the four commands that write before a fault. -/
theorem FaultWrites.endsIdle (h : FaultWrites s i u) (F : CmdFault) : EndsIdle s (u.raise F) := by
  cases h <;> exact endsIdle_raise F rfl rfl rfl rfl

end

theorem CommandEnds.endsIdle {s t : State} {i : Instr} (h : CommandEnds s i t) : EndsIdle s t := by
  cases h with
  | completes hu => exact hu.endsIdle
  | faults hu F => exact hu.endsIdle F

/-- Settles O60: either way of ending leaves the block idle, and what a command reports is as before or a fault of its
list. -/
theorem everyCommandEndsIdleWithAListedFault : Obligations.EveryCommandEndsIdleWithAListedFault := by
  intro i s hwf herr
  obtain ⟨t, hexec, hreports⟩ := exec_reports hwf s
  have hidle : EndsIdle s t := (commandEnds_of_exec hexec).endsIdle
  refine ⟨t, hexec, hidle, ?_⟩
  rcases hreports with ⟨hsame, hcode⟩ | ⟨F, hF, hset, hcode⟩
  · exact .inl ⟨hsame.trans herr, hcode⟩
  · exact .inr ⟨F, hF, hidle, hset, hcode⟩

end Sys2Proof.Machine

namespace Sys2Proof.Machine

/-! ## What a reset leaves, and the invariants after it (10_state.md R48, 70_reset_and_hazards.md R290, R291)

The `…_of_hostEnds` lemmas take an invariant of the state before the access; a reset needs none, since it leaves nothing
of that state but the configuration, the schedule and the request count. -/

theorem step_of_reset_turn {s : State} {rest : List Turn} (h : s.turns = .host .reset :: rest) :
    step s = .next ({ s with turns := rest } : State).hostReset :=
  step_of_host_turn h

/-- R48's state is its own reset. -/
theorem State.hostReset_reset : State.reset.hostReset = State.reset := rfl

/-- No address is listed after a reset, so every byte reads as the blank one. -/
theorem State.read_mem_hostReset (s : State) (a : Nat) : s.hostReset.mem.read a = 0 := rfl

theorem memoryInv_hostReset {s : State} (h : s.cfg.Legal) : MemoryInv s.hostReset := ⟨h, rfl, fun _ hc => nomatch hc⟩

theorem idleInv_hostReset (s : State) : IdleInv s.hostReset := fun _ => ⟨rfl, rfl⟩

/-- ERR and BUSY are 0, and so is the code. -/
theorem faultInv_hostReset (s : State) : FaultInv s.hostReset := ⟨iff_of_true rfl rfl, Nat.zero_le _, fun _ => rfl⟩

theorem testSourceInv_hostReset (s : State) : TestSourceInv s.hostReset :=
  ⟨Nat.zero_le _, Nat.zero_le _, fun _ => ⟨rfl, rfl, rfl⟩⟩

/-- A legal configuration is all that the five invariants ask of the state before a reset. -/
theorem invariants_hostReset {s : State} (h : s.cfg.Legal) :
    NumbersInv s.hostReset ∧ MemoryInv s.hostReset ∧ IdleInv s.hostReset ∧ FaultInv s.hostReset ∧
      TestSourceInv s.hostReset :=
  ⟨.hostReset h, memoryInv_hostReset h, idleInv_hostReset s, faultInv_hostReset s, testSourceInv_hostReset s⟩

theorem cfg256_legal : Config.cfg256.Legal := by decide +kernel

/-- Settles O38: the turn's access is `State.hostReset`, whatever runs, and `State.reset` is its own reset. -/
theorem invariantsHoldAfterReset : Obligations.InvariantsHoldAfterReset := by
  refine ⟨fun s rest hturns hlegal => ?_, ?_⟩
  · have hinv := invariants_hostReset (s := { s with turns := rest }) hlegal
    exact ⟨_, step_of_reset_turn hturns, WideReg.get_hostReset _, rfl, rfl, rfl, rfl, rfl, rfl, rfl, rfl,
      State.read_mem_hostReset _, rfl, rfl, rfl, rfl, hinv⟩
  · have hinv := invariants_hostReset (s := State.reset) cfg256_legal
    rwa [State.hostReset_reset] at hinv

end Sys2Proof.Machine
